-- ==== Sys2Proof/Word.lean ====
section
/-! DEFINITION. The word types of the machine and nothing else: bytes, program words, the 24-bit address the
pointers and RAMP registers form (spec/00_scope.md R13, spec/20_memory.md R68), and register numbers. -/

namespace Sys2Proof

/-- One byte: a general register, an I/O location, a data-space byte. -/
abbrev Byte := BitVec 8

/-- One word of program memory (R65). -/
abbrev Word := BitVec 16

/-- A 24-bit address RAMPx:pointer (R37, R85). -/
abbrev Addr24 := BitVec 24

/-- A word address of program memory: the 22-bit PC of the largest device (R8, R30). -/
abbrev PcWord := BitVec 22

/-- A general register number, 0 to 31 (R21). -/
abbrev Reg := Fin 32

end Sys2Proof
end

