-- ==== Sys2Proof/Machine/Events.lean ====
section
/-! DEFINITION. What the CPU hands to the platform (spec/20_memory.md R71-R73, spec/60_exceptions.md R381, R382,
spec/45_mcu_control.md R363, spec/43_data_transfer.md R288), and sparse memories as data. -/

namespace Sys2Proof.Machine

/-- A location of the device oracle (R72): an I/O location, or an extended I/O data address. -/
inductive DevLoc where
  | io (A : BitVec 6)
  | ext (a : Nat)
  deriving DecidableEq, Repr

/-- What the CPU hands to the platform (the model's record of it, log 42). -/
inductive PlatformEvent where
  /-- `DevRead`: the location and the byte the device returned (R72). -/
  | devRead (loc : DevLoc) (v : Byte)
  /-- `DevWrite`: the location and the byte handed to it (R72). -/
  | devWrite (loc : DevLoc) (v : Byte)
  /-- `DevSetBit` (R73). -/
  | devSetBit (loc : DevLoc) (b : Fin 8)
  /-- `DevClearBit` (R73). -/
  | devClearBit (loc : DevLoc) (b : Fin 8)
  /-- `IrqAck(n)` (R381). -/
  | irqAck (n : Nat)
  /-- `IrqReturn()` (R382). -/
  | irqReturn
  /-- `WdrEffect()` (R363). -/
  | wdr
  /-- `SpmEffect` at RAMPZ:Z with the data word R1:R0 (R288). -/
  | spm (addr : Addr24) (data : Word)
  deriving DecidableEq, Repr

/-- A sparse memory: (address, byte) pairs in one canonical form, addresses strictly rising and no entry equal to what
an unlisted address reads as (`Memory.wf` in Machine/Ops.lean). -/
abbrev Memory := List Host.Cell

end Sys2Proof.Machine
end

