-- ==== Sys2Proof/Machine/Fips46.lean ====
section
/-! DEFINITION. The DES cipher of FIPS 46, which the manual's DES section names as what sixteen DES instructions compute
(spec/41_multiply_des.md R187). PRESUMED: the tables are those of the standard, which the spec names and does not print
(log 45). Nothing here says what one DES instruction does: that is free (Sys2Proof/Config.lean). -/

namespace Sys2Proof.Fips46

/-- The bits of `x` that a table of the standard names, its bit 1 the most significant one. -/
def select {n : Nat} (m : Nat) (table : List Nat) (x : BitVec n) : BitVec m :=
  table.foldl (fun acc i => acc <<< 1 ||| (BitVec.ofBool (x.getMsbD (i - 1))).setWidth m) 0

/-- The initial permutation IP. -/
def ip : List Nat :=
  [58, 50, 42, 34, 26, 18, 10, 2, 60, 52, 44, 36, 28, 20, 12, 4,
   62, 54, 46, 38, 30, 22, 14, 6, 64, 56, 48, 40, 32, 24, 16, 8,
   57, 49, 41, 33, 25, 17, 9, 1, 59, 51, 43, 35, 27, 19, 11, 3,
   61, 53, 45, 37, 29, 21, 13, 5, 63, 55, 47, 39, 31, 23, 15, 7]

/-- The inverse of the initial permutation. -/
def ipInverse : List Nat :=
  [40, 8, 48, 16, 56, 24, 64, 32, 39, 7, 47, 15, 55, 23, 63, 31,
   38, 6, 46, 14, 54, 22, 62, 30, 37, 5, 45, 13, 53, 21, 61, 29,
   36, 4, 44, 12, 52, 20, 60, 28, 35, 3, 43, 11, 51, 19, 59, 27,
   34, 2, 42, 10, 50, 18, 58, 26, 33, 1, 41, 9, 49, 17, 57, 25]

/-- The bit selection E, 32 bits to 48. -/
def expansion : List Nat :=
  [32, 1, 2, 3, 4, 5, 4, 5, 6, 7, 8, 9, 8, 9, 10, 11, 12, 13, 12, 13, 14, 15, 16, 17,
   16, 17, 18, 19, 20, 21, 20, 21, 22, 23, 24, 25, 24, 25, 26, 27, 28, 29, 28, 29, 30, 31, 32, 1]

/-- The permutation P. -/
def permutation : List Nat :=
  [16, 7, 20, 21, 29, 12, 28, 17, 1, 15, 23, 26, 5, 18, 31, 10,
   2, 8, 24, 14, 32, 27, 3, 9, 19, 13, 30, 6, 22, 11, 4, 25]

/-- The first half of permuted choice 1, which gives C0. -/
def choiceC : List Nat :=
  [57, 49, 41, 33, 25, 17, 9, 1, 58, 50, 42, 34, 26, 18, 10, 2, 59, 51, 43, 35, 27, 19, 11, 3, 60, 52, 44, 36]

/-- The second half of permuted choice 1, which gives D0. -/
def choiceD : List Nat :=
  [63, 55, 47, 39, 31, 23, 15, 7, 62, 54, 46, 38, 30, 22, 14, 6, 61, 53, 45, 37, 29, 21, 13, 5, 28, 20, 12, 4]

/-- Permuted choice 2, 56 bits to 48. -/
def choice2 : List Nat :=
  [14, 17, 11, 24, 1, 5, 3, 28, 15, 6, 21, 10, 23, 19, 12, 4, 26, 8, 16, 7, 27, 20, 13, 2,
   41, 52, 31, 37, 47, 55, 30, 40, 51, 45, 33, 48, 44, 49, 39, 56, 34, 53, 46, 42, 50, 36, 29, 32]

/-- The left shifts of C and D before each round. -/
def shifts : List Nat := [1, 1, 2, 2, 2, 2, 2, 2, 1, 2, 2, 2, 2, 2, 2, 1]

def s1 : List Nat :=
  [14, 4, 13, 1, 2, 15, 11, 8, 3, 10, 6, 12, 5, 9, 0, 7, 0, 15, 7, 4, 14, 2, 13, 1, 10, 6, 12, 11, 9, 5, 3, 8,
   4, 1, 14, 8, 13, 6, 2, 11, 15, 12, 9, 7, 3, 10, 5, 0, 15, 12, 8, 2, 4, 9, 1, 7, 5, 11, 3, 14, 10, 0, 6, 13]

def s2 : List Nat :=
  [15, 1, 8, 14, 6, 11, 3, 4, 9, 7, 2, 13, 12, 0, 5, 10, 3, 13, 4, 7, 15, 2, 8, 14, 12, 0, 1, 10, 6, 9, 11, 5,
   0, 14, 7, 11, 10, 4, 13, 1, 5, 8, 12, 6, 9, 3, 2, 15, 13, 8, 10, 1, 3, 15, 4, 2, 11, 6, 7, 12, 0, 5, 14, 9]

def s3 : List Nat :=
  [10, 0, 9, 14, 6, 3, 15, 5, 1, 13, 12, 7, 11, 4, 2, 8, 13, 7, 0, 9, 3, 4, 6, 10, 2, 8, 5, 14, 12, 11, 15, 1,
   13, 6, 4, 9, 8, 15, 3, 0, 11, 1, 2, 12, 5, 10, 14, 7, 1, 10, 13, 0, 6, 9, 8, 7, 4, 15, 14, 3, 11, 5, 2, 12]

def s4 : List Nat :=
  [7, 13, 14, 3, 0, 6, 9, 10, 1, 2, 8, 5, 11, 12, 4, 15, 13, 8, 11, 5, 6, 15, 0, 3, 4, 7, 2, 12, 1, 10, 14, 9,
   10, 6, 9, 0, 12, 11, 7, 13, 15, 1, 3, 14, 5, 2, 8, 4, 3, 15, 0, 6, 10, 1, 13, 8, 9, 4, 5, 11, 12, 7, 2, 14]

def s5 : List Nat :=
  [2, 12, 4, 1, 7, 10, 11, 6, 8, 5, 3, 15, 13, 0, 14, 9, 14, 11, 2, 12, 4, 7, 13, 1, 5, 0, 15, 10, 3, 9, 8, 6,
   4, 2, 1, 11, 10, 13, 7, 8, 15, 9, 12, 5, 6, 3, 0, 14, 11, 8, 12, 7, 1, 14, 2, 13, 6, 15, 0, 9, 10, 4, 5, 3]

def s6 : List Nat :=
  [12, 1, 10, 15, 9, 2, 6, 8, 0, 13, 3, 4, 14, 7, 5, 11, 10, 15, 4, 2, 7, 12, 9, 5, 6, 1, 13, 14, 0, 11, 3, 8,
   9, 14, 15, 5, 2, 8, 12, 3, 7, 0, 4, 10, 1, 13, 11, 6, 4, 3, 2, 12, 9, 5, 15, 10, 11, 14, 1, 7, 6, 0, 8, 13]

def s7 : List Nat :=
  [4, 11, 2, 14, 15, 0, 8, 13, 3, 12, 9, 7, 5, 10, 6, 1, 13, 0, 11, 7, 4, 9, 1, 10, 14, 3, 5, 12, 2, 15, 8, 6,
   1, 4, 11, 13, 12, 3, 7, 14, 10, 15, 6, 8, 0, 5, 9, 2, 6, 11, 13, 8, 1, 4, 10, 7, 9, 5, 0, 15, 14, 2, 3, 12]

def s8 : List Nat :=
  [13, 2, 8, 4, 6, 15, 11, 1, 10, 9, 3, 14, 5, 0, 12, 7, 1, 15, 13, 8, 10, 3, 7, 4, 12, 5, 6, 11, 0, 14, 9, 2,
   7, 11, 4, 1, 9, 12, 14, 2, 0, 6, 10, 13, 15, 3, 5, 8, 2, 1, 14, 7, 4, 10, 8, 13, 15, 12, 9, 0, 3, 5, 6, 11]

/-- The selection functions S1 to S8, each four rows of sixteen. -/
def boxes : List (List Nat) := [s1, s2, s3, s4, s5, s6, s7, s8]

/-- A selection function on six bits: the outer two name the row, the inner four the column. -/
def substitute (box : List Nat) (b : BitVec 6) : BitVec 4 :=
  let row := (b.extractLsb' 5 1).toNat * 2 + (b.extractLsb' 0 1).toNat
  BitVec.ofNat 4 (box.getD (row * 16 + (b.extractLsb' 1 4).toNat) 0)

/-- The cipher function f(R, K). -/
def cipherFunction (r : BitVec 32) (k : BitVec 48) : BitVec 32 :=
  let x := select 48 expansion r ^^^ k
  let s := (List.range 8).foldl
    (fun (acc : BitVec 32) i => acc <<< 4 ||| (substitute (boxes.getD i []) (x.extractLsb' (42 - 6 * i) 6)).setWidth 32) 0
  select 32 permutation s

/-- The round keys K1 to K16, from C and D on with the shifts left. -/
def keySchedule (c d : BitVec 28) : List Nat → List (BitVec 48)
  | [] => []
  | n :: rest =>
    let c' := c.rotateLeft n
    let d' := d.rotateLeft n
    select 48 choice2 (c' ++ d') :: keySchedule c' d' rest

/-- The sixteen round keys of a key, in the order of encryption. -/
def roundKeys (key : BitVec 64) : List (BitVec 48) := keySchedule (select 28 choiceC key) (select 28 choiceD key) shifts

/-- The rounds on the halves L and R. -/
def rounds (l r : BitVec 32) : List (BitVec 48) → BitVec 64
  | [] => r ++ l
  | k :: rest => rounds r (l ^^^ cipherFunction r k) rest

/-- The DES encryption of a block under a key, or its decryption, which takes the round keys in reverse. -/
def crypt (decrypt : Bool) (key block : BitVec 64) : BitVec 64 :=
  let x := select 64 ip block
  let keys := roundKeys key
  select 64 ipInverse (rounds (x.extractLsb' 32 32) (x.extractLsb' 0 32) (if decrypt then keys.reverse else keys))

/-- The 64-bit data of the block R15:R0 DES works on: R7 to R0, R7 most significant (R187). -/
def dataOf (block : BitVec 128) : BitVec 64 := block.extractLsb' 0 64

/-- The 64-bit key of the block R15:R0: R15 to R8, R15 most significant (R187). -/
def keyOf (block : BitVec 128) : BitVec 64 := block.extractLsb' 64 64

/-- Rounds 0 to 15 of a round function, one after another in that order, with one setting of H (R187). -/
def sixteenRounds (round : BitVec 128 → BitVec 4 → Bool → BitVec 128) (block : BitVec 128) (decrypt : Bool) :
    BitVec 128 :=
  (List.range 16).foldl (fun b k => round b (BitVec.ofNat 4 k) decrypt) block

/-- The one property R187 states of `DesRound`: sixteen rounds in increasing order leave in R7:R0 the encryption of the
data under the key with H = 0 throughout, the decryption with H = 1 throughout. -/
def SixteenRoundsCrypt (round : BitVec 128 → BitVec 4 → Bool → BitVec 128) : Prop :=
  ∀ block decrypt, dataOf (sixteenRounds round block decrypt) = crypt decrypt (keyOf block) (dataOf block)

/-- A round function with the property of R187, which shows that there is one: all the work in round 15. -/
def cryptAtLast (block : BitVec 128) (K : BitVec 4) (decrypt : Bool) : BitVec 128 :=
  if K = 15 then keyOf block ++ crypt decrypt (keyOf block) (dataOf block) else block

theorem dataOf_append (x y : BitVec 64) : dataOf (x ++ y) = y := by
  ext i hi
  simp only [dataOf, BitVec.getElem_extractLsb', BitVec.getLsbD_append, Nat.zero_add, hi, if_true]
  exact BitVec.getLsbD_eq_getElem hi

theorem cryptAtLast_crypts : SixteenRoundsCrypt cryptAtLast := fun _ _ => dataOf_append _ _

end Sys2Proof.Fips46
end

