-- ==== Sys2Proof/Config.lean ====
section
/-! DEFINITION. The implementation parameters the spec names (spec/00_scope.md R6-R11, spec/92_eei_decisions.md
part 2) as one plain record, and the free values: opaque constants with no body, of which nothing can be proved. -/

namespace Sys2Proof

/-- The CPU version, `CORE` (R6, Table 4-1). -/
inductive Core where
  | AVR | AVRe | AVRxm | AVRxt | AVRrc
  deriving DecidableEq, Repr

/-- The instruction forms of `AVAIL` (R7): one per canonical row of the opcode table, named as the row's constructor. -/
inductive Form where
  | add | adc | adiw | sub | subi | sbc | sbci | sbiw | and | andi | or | ori | eor | com | neg | inc | dec
  | mul | muls | mulsu | fmul | fmuls | fmulsu | des | rjmp | ijmp | eijmp | jmp | rcall | icall | eicall | call
  | ret | reti | cpse | cp | cpc | cpi | sbrc | sbrs | sbic | sbis | brbs | brbc | mov | movw | ldi | lds | lds16
  | ldX | ldXInc | ldXDec | ldY | ldYInc | ldYDec | lddY | ldZ | ldZInc | ldZDec | lddZ | sts | sts16 | stX
  | stXInc | stXDec | stY | stYInc | stYDec | stdY | stZ | stZInc | stZDec | stdZ | lpmR0 | lpm | lpmInc | elpmR0
  | elpm | elpmInc | spm | spmInc | inIo | outIo | push | pop | xch | las | lac | lat | lsr | ror | asr | swap
  | sbi | cbi | bst | bld | bset | bclr | brk | nop | sleep | wdr
  deriving DecidableEq, Repr

/-- `PC_BITS` (R8). -/
inductive PcBits where
  | bits16 | bits22
  deriving DecidableEq, Repr

/-- The width of the program counter in bits (R8, R30). -/
def PcBits.width : PcBits → Nat
  | .bits16 => 16
  | .bits22 => 22

/-- `SP_BITS` (R35, D21). -/
inductive SpBits where
  | bits8 | bits16
  deriving DecidableEq, Repr

/-- The width of the stack pointer in bits. -/
def SpBits.width : SpBits → Nat
  | .bits8 => 8
  | .bits16 => 16

/-- `DATA_CLASS` (R9). -/
inductive DataClass where
  | small | normal | large
  deriving DecidableEq, Repr

/-- The three pointer registers (R22). -/
inductive Ptr where
  | X | Y | Z
  deriving DecidableEq, Repr

/-- What a region of the data space holds (R61). External SRAM is told apart from internal SRAM because LAS, LAC and
LAT reach internal SRAM only (R299). -/
inductive RegionKind where
  | regFile | io | extIo | sram | extSram | flash
  deriving DecidableEq, Repr

/-- One region of `DATA_MAP` (R61): the data addresses `first` to `last`. `base` is the register number, I/O location
or program byte address that `first` stands for (not used by the other kinds). -/
structure Region where
  first : Nat
  last : Nat
  kind : RegionKind
  base : Nat
  deriving DecidableEq, Repr

/-- `IrqSelect` (R383): the lowest pending number, or an unconstrained choice. -/
inductive IrqSelect where
  | lowest | free
  deriving DecidableEq, Repr

/-- The configuration record of R6 to R11. Every field is a parameter the spec leaves OPEN. -/
structure Config where
  /-- `CORE` (R6). -/
  core : Core
  /-- The forms taken out of `AVAIL`, which is otherwise the largest set the tables allow for `core` (R7). -/
  absent : List Form
  /-- `HAS_MUL` (R7): whether an AVRe device has the six multiplies. -/
  hasMul : Bool
  /-- `PC_BITS` and with it `RET_BYTES` (R8). -/
  pcBits : PcBits
  /-- `PC_WRAP_BITS` (R32); `none` is the default `PC_BITS`. -/
  pcWrapBits : Option Nat
  /-- `FLASHEND`, a word address (R8). -/
  flashEnd : Nat
  /-- `RAMEND`, a byte address (R9). -/
  ramEnd : Nat
  /-- `DATA_CLASS` (R9). -/
  dataClass : DataClass
  /-- `HAS_RAMPX` (R10). -/
  hasRampX : Bool
  /-- `HAS_RAMPY` (R10). -/
  hasRampY : Bool
  /-- `HAS_RAMPZ` (R10). -/
  hasRampZ : Bool
  /-- `HAS_RAMPD` (R10). -/
  hasRampD : Bool
  /-- `HAS_EIND` (R10). -/
  hasEind : Bool
  /-- The override of `PtrMode(Z)` to NORMAL while `HAS_RAMPZ` is true (spec/93 row 24); default false. -/
  zPointerNormal : Bool
  /-- `IO_SREG` (R11, D5), and the other I/O addresses of the CPU's own registers below. -/
  ioSreg : BitVec 6
  ioSpl : BitVec 6
  ioSph : BitVec 6
  ioRampD : BitVec 6
  ioRampX : BitVec 6
  ioRampY : BitVec 6
  ioRampZ : BitVec 6
  ioEind : BitVec 6
  /-- `SP_BITS` (R35). -/
  spBits : SpBits
  /-- `DATA_MAP` (R61): the first region that holds an address classes it; an address in none is unmapped. -/
  dataMap : List Region
  /-- `RESET_PC` (R48). -/
  resetPc : PcWord
  /-- `RESET_SP` (R48). -/
  resetSp : BitVec 16
  /-- `NUM_VECTORS` (R380). -/
  numVectors : Nat
  /-- `VECTOR_BASE` (R381). -/
  vectorBase : Nat
  /-- `VECTOR_STRIDE` (R381). -/
  vectorStride : Nat
  /-- Entries of `VECTOR` that differ from base + n * stride (R381: `VECTOR` is an OPEN function). -/
  vectorTable : List (Nat × PcWord)
  /-- `IrqSelect` (R383). -/
  irqSelect : IrqSelect
  /-- The sources whose request `IrqAck` clears on entry (R381); the default `IrqAck` is the identity. -/
  ackClears : List Nat
  /-- Whether the platform supplies `DevSetBit` and `DevClearBit` for SBI and CBI (R73). -/
  devBitOps : Bool
  /-- Whether the platform supplies `DesRound` (R187). -/
  hasDesRound : Bool
  /-- Whether the platform supplies `SpmEffect` (R288). -/
  hasSpmEffect : Bool
  /-- `LDS16_ALT` (R112, D15). -/
  lds16Alt : Bool
  /-- Whether the row of SPM Z+ counts AVR and AVRe among its cores: R290 says that it does not, the row of
  opcode_table.json that it does (log 20). False is R290's reading. -/
  spmIncClassic : Bool
  deriving DecidableEq, Repr

/-- The byte a device returns when it is read (R72): a free value, applied to the number of draws made so far. -/
opaque Config.freeByte : Nat → Byte

/-- An unconstrained `IrqSelect` (R383): a free value, applied to the number of draws made so far. -/
opaque Config.irqPick : Nat → Nat

/-- A `DesRound(R0..R15, K, decrypt)` (R187): the sixteen registers as one 128-bit value, R0 in bits 7:0. It is free but
for the one property the manual states, which is about sixteen rounds (log 18, log 45). The defaults show that there is
one and play no other part. -/
structure DesRound where
  round : BitVec 128 → BitVec 4 → Bool → BitVec 128 := Fips46.cryptAtLast
  crypts : Fips46.SixteenRoundsCrypt round := by exact Fips46.cryptAtLast_crypts
  deriving Inhabited

/-- The platform's `DesRound` (R187): a free value. -/
opaque Config.desRound : DesRound

/-- The platform state `SpmEffect` is given (R288, R44, R45): the device, where in program memory the SPM stands (the boot
space rule of R289 lies inside `SpmEffect`), the words of program memory, the page buffer, the lock bits, the fuses, the
other inputs of the platform, and all that the CPU has handed to the devices, the writes of `SPMCR` among it, newest
first. `draws` is the model's counter (log 41). -/
structure PlatformState where
  cfg : Config
  pc : PcWord
  prog : Machine.Memory
  buffer : List (Nat × Word)
  lockBitSet : Bool
  jtagenProgrammed : Bool
  ocdenProgrammed : Bool
  sleepEnabled : Bool
  irqPending : List Nat
  events : List Machine.PlatformEvent
  draws : Nat
  deriving DecidableEq, Repr

/-- What `SpmEffect` leaves (R288): the program words it stores, as (word address, word), the temporary page buffer
(R44), and whether any lock bit is set. Device registers need no part here: every read of one is free (R72). -/
structure SpmOutcome where
  words : List (Nat × Word)
  buffer : List (Nat × Word)
  lockBitSet : Bool
  deriving DecidableEq, Repr, Inhabited

/-- The platform's `SpmEffect` of RAMPZ:Z, R1:R0 and the platform state (R288): a free value (log 19). -/
opaque Config.spmEffect : Addr24 → Word → PlatformState → SpmOutcome

end Sys2Proof
end

