-- ==== Sys2Proof/Machine/Platform.lean ====
section
/-! DEFINITION. The conventional data-space maps (spec/20_memory.md R61, from general knowledge), and the configuration
`State.reset` and `decodeTableWord` take (log 2, log 4: an XMEGA-like device with every instruction of Tables 4-2 to 4-6
that one core can have). No rule depends on this file: every theorem over all states is over all configurations. -/

namespace Sys2Proof.Machine

/-- AVR and AVRe: registers at 0x00, I/O at 0x20, extended I/O to 0xFF, SRAM up to `ramEnd` (R61, row 1). -/
def dataMapClassic (ramEnd : Nat) : List Region :=
  [⟨0x00, 0x1F, .regFile, 0⟩, ⟨0x20, 0x5F, .io, 0⟩, ⟨0x60, 0xFF, .extIo, 0⟩, ⟨0x100, ramEnd, .sram, 0⟩]

/-- AVRxm: I/O at 0x00, extended I/O to 0x0FFF, SRAM from 0x2000, no registers in the data space (R61, row 2). DESIGN
CHOICE (log 47): that row has EEPROM from 0x1000, DATA_MAP has no class for it; 0x1000 to 0x1FFF are unmapped here. -/
def dataMapXmega (ramEnd : Nat) : List Region :=
  [⟨0x00, 0x3F, .io, 0⟩, ⟨0x40, 0x0FFF, .extIo, 0⟩, ⟨0x2000, ramEnd, .sram, 0⟩]

/-- AVRxt: I/O at 0x00, extended I/O to 0x0FFF, SRAM below the flash mapping at 0x8000 (R61, row 3). -/
def dataMapXt (sramStart ramEnd flashBytes : Nat) : List Region :=
  [⟨0x00, 0x3F, .io, 0⟩, ⟨0x40, 0x0FFF, .extIo, 0⟩, ⟨sramStart, ramEnd, .sram, 0⟩,
   ⟨0x8000, 0x8000 + flashBytes - 1, .flash, 0⟩]

/-- AVRrc: I/O at 0x00, SRAM from 0x40, the flash mapping at 0x4000 (R61, row 4). -/
def dataMapRc (ramEnd flashBytes : Nat) : List Region :=
  [⟨0x00, 0x3F, .io, 0⟩, ⟨0x40, ramEnd, .sram, 0⟩, ⟨0x4000, 0x4000 + flashBytes - 1, .flash, 0⟩]

/-- The configuration right after reset: AVRxm with a 22-bit PC, 8 KB of SRAM, every extension register, and a platform
that supplies `DesRound` and `SpmEffect` as free functions (log 2, log 18, log 19). -/
def defaultConfig : Config where
  core := .AVRxm
  absent := []
  hasMul := true
  pcBits := .bits22
  pcWrapBits := none
  flashEnd := 0x3FFFFF
  ramEnd := 0x3FFF
  dataClass := .normal
  hasRampX := true
  hasRampY := true
  hasRampZ := true
  hasRampD := true
  hasEind := true
  zPointerNormal := false
  ioSreg := 0x3F
  ioSpl := 0x3D
  ioSph := 0x3E
  ioRampD := 0x38
  ioRampX := 0x39
  ioRampY := 0x3A
  ioRampZ := 0x3B
  ioEind := 0x3C
  spBits := .bits16
  dataMap := dataMapXmega 0x3FFF
  resetPc := 0
  resetSp := 0x3FFF
  numVectors := 128
  vectorBase := 0
  vectorStride := 2
  vectorTable := []
  irqSelect := .lowest
  ackClears := []
  devBitOps := false
  hasDesRound := true
  hasSpmEffect := true
  lds16Alt := false
  spmIncClassic := false

end Sys2Proof.Machine
end

