-- ==== Sys2Proof/Syntax.lean ====
section
/-! DEFINITION. The instruction syntax: one constructor of `Instr` per row of spec/opcode_table.json, in the table's
order, with the operands the row's "Syntax:" line names, their fields decoded (spec/30_encoding.md R110, R111).
The 41 alias rows (R115) are constructors too; the decoder never answers one. -/

namespace Sys2Proof

/-- The instructions. `d` and `r` are register numbers (the low register of a pair), `K` a constant, `k` a relative
offset, program address or data address as encoded, `q` a displacement, `A` an I/O location, `b` and `s` bit numbers. -/
inductive Instr where
  -- Arithmetic and logic (Table 4-2; 40_arithmetic_logic.md)
  /-- `ADD Rd,Rr`, R144. -/
  | add (d : Reg) (r : Reg)
  /-- `ADC Rd,Rr`, R145. -/
  | adc (d : Reg) (r : Reg)
  /-- `ADIW Rd+1:Rd,K`, R146. -/
  | adiw (d : Reg) (K : BitVec 6)
  /-- `SUB Rd,Rr`, R147. -/
  | sub (d : Reg) (r : Reg)
  /-- `SUBI Rd,K`, R148. -/
  | subi (d : Reg) (K : Byte)
  /-- `SBC Rd,Rr`, R149. -/
  | sbc (d : Reg) (r : Reg)
  /-- `SBCI Rd,K`, R150. -/
  | sbci (d : Reg) (K : Byte)
  /-- `SBIW Rd+1:Rd,K`, R151. -/
  | sbiw (d : Reg) (K : BitVec 6)
  /-- `AND Rd,Rr`, R152. -/
  | and (d : Reg) (r : Reg)
  /-- `ANDI Rd,K`, R153. -/
  | andi (d : Reg) (K : Byte)
  /-- `OR Rd,Rr`, R154. -/
  | or (d : Reg) (r : Reg)
  /-- `ORI Rd,K`, R155. -/
  | ori (d : Reg) (K : Byte)
  /-- `EOR Rd,Rr`, R156. -/
  | eor (d : Reg) (r : Reg)
  /-- `COM Rd`, R157. -/
  | com (d : Reg)
  /-- `NEG Rd`, R158. -/
  | neg (d : Reg)
  /-- `SBR Rd,K`, R159; alias of `ORI Rd,K`. -/
  | sbr (d : Reg) (K : Byte)
  /-- `CBR Rd,K`, R160; alias of `ANDI Rd,($FF - K)`. -/
  | cbr (d : Reg) (K : Byte)
  /-- `INC Rd`, R161. -/
  | inc (d : Reg)
  /-- `DEC Rd`, R162. -/
  | dec (d : Reg)
  /-- `TST Rd`, R163; alias of `AND Rd,Rd`. -/
  | tst (d : Reg)
  /-- `CLR Rd`, R164; alias of `EOR Rd,Rd`. -/
  | clr (d : Reg)
  /-- `SER Rd`, R165; alias of `LDI Rd,$FF`. -/
  | ser (d : Reg)
  -- Multiply and DES (Table 4-2; 41_multiply_des.md)
  /-- `MUL Rd,Rr`, R181. -/
  | mul (d : Reg) (r : Reg)
  /-- `MULS Rd,Rr`, R182. -/
  | muls (d : Reg) (r : Reg)
  /-- `MULSU Rd,Rr`, R183. -/
  | mulsu (d : Reg) (r : Reg)
  /-- `FMUL Rd,Rr`, R184. -/
  | fmul (d : Reg) (r : Reg)
  /-- `FMULS Rd,Rr`, R185. -/
  | fmuls (d : Reg) (r : Reg)
  /-- `FMULSU Rd,Rr`, R186. -/
  | fmulsu (d : Reg) (r : Reg)
  /-- `DES K`, R187. -/
  | des (K : BitVec 4)
  -- Branch, call, return, compare and skip (Table 4-3; 42_branch.md)
  /-- `RJMP k`, R193. -/
  | rjmp (k : BitVec 12)
  /-- `IJMP`, R194. -/
  | ijmp
  /-- `EIJMP`, R195. -/
  | eijmp
  /-- `JMP k`, R196. -/
  | jmp (k : BitVec 22)
  /-- `RCALL k`, R197. -/
  | rcall (k : BitVec 12)
  /-- `ICALL`, R198. -/
  | icall
  /-- `EICALL`, R199. -/
  | eicall
  /-- `CALL k`, R200. -/
  | call (k : BitVec 22)
  /-- `RET`, R202. -/
  | ret
  /-- `RETI`, R203. -/
  | reti
  /-- `CPSE Rd,Rr`, R204. -/
  | cpse (d : Reg) (r : Reg)
  /-- `CP Rd,Rr`, R205. -/
  | cp (d : Reg) (r : Reg)
  /-- `CPC Rd,Rr`, R206. -/
  | cpc (d : Reg) (r : Reg)
  /-- `CPI Rd,K`, R207. -/
  | cpi (d : Reg) (K : Byte)
  /-- `SBRC Rr,b`, R208. -/
  | sbrc (r : Reg) (b : Fin 8)
  /-- `SBRS Rr,b`, R209. -/
  | sbrs (r : Reg) (b : Fin 8)
  /-- `SBIC A,b`, R210. -/
  | sbic (A : BitVec 5) (b : Fin 8)
  /-- `SBIS A,b`, R211. -/
  | sbis (A : BitVec 5) (b : Fin 8)
  /-- `BRBS s,k`, R212. -/
  | brbs (s : Fin 8) (k : BitVec 7)
  /-- `BRBC s,k`, R213. -/
  | brbc (s : Fin 8) (k : BitVec 7)
  /-- `BREQ k`, R214; alias of `BRBS 1,k`. -/
  | breq (k : BitVec 7)
  /-- `BRNE k`, R215; alias of `BRBC 1,k`. -/
  | brne (k : BitVec 7)
  /-- `BRCS k`, R216; alias of `BRBS 0,k`. -/
  | brcs (k : BitVec 7)
  /-- `BRCC k`, R217; alias of `BRBC 0,k`. -/
  | brcc (k : BitVec 7)
  /-- `BRSH k`, R218; alias of `BRBC 0,k`. -/
  | brsh (k : BitVec 7)
  /-- `BRLO k`, R219; alias of `BRBS 0,k`. -/
  | brlo (k : BitVec 7)
  /-- `BRMI k`, R220; alias of `BRBS 2,k`. -/
  | brmi (k : BitVec 7)
  /-- `BRPL k`, R221; alias of `BRBC 2,k`. -/
  | brpl (k : BitVec 7)
  /-- `BRGE k`, R222; alias of `BRBC 4,k`. -/
  | brge (k : BitVec 7)
  /-- `BRLT k`, R223; alias of `BRBS 4,k`. -/
  | brlt (k : BitVec 7)
  /-- `BRHS k`, R224; alias of `BRBS 5,k`. -/
  | brhs (k : BitVec 7)
  /-- `BRHC k`, R225; alias of `BRBC 5,k`. -/
  | brhc (k : BitVec 7)
  /-- `BRTS k`, R226; alias of `BRBS 6,k`. -/
  | brts (k : BitVec 7)
  /-- `BRTC k`, R227; alias of `BRBC 6,k`. -/
  | brtc (k : BitVec 7)
  /-- `BRVS k`, R228; alias of `BRBS 3,k`. -/
  | brvs (k : BitVec 7)
  /-- `BRVC k`, R229; alias of `BRBC 3,k`. -/
  | brvc (k : BitVec 7)
  /-- `BRIE k`, R230; alias of `BRBS 7,k`. -/
  | brie (k : BitVec 7)
  /-- `BRID k`, R231; alias of `BRBC 7,k`. -/
  | brid (k : BitVec 7)
  -- Data transfer (Table 4-4; 43_data_transfer.md)
  /-- `MOV Rd,Rr`, R251. -/
  | mov (d : Reg) (r : Reg)
  /-- `MOVW Rd+1:Rd,Rr+1:Rr`, R252. -/
  | movw (d : Reg) (r : Reg)
  /-- `LDI Rd,K`, R253. -/
  | ldi (d : Reg) (K : Byte)
  /-- `LDS Rd,k`, R254. -/
  | lds (d : Reg) (k : BitVec 16)
  /-- `LDS Rd,k`, R255. -/
  | lds16 (d : Reg) (k : BitVec 7)
  /-- `LD Rd,X`, R258. -/
  | ldX (d : Reg)
  /-- `LD Rd,X+`, R259. -/
  | ldXInc (d : Reg)
  /-- `LD Rd,-X`, R260. -/
  | ldXDec (d : Reg)
  /-- `LD Rd,Y`, R261. -/
  | ldY (d : Reg)
  /-- `LD Rd,Y+`, R262. -/
  | ldYInc (d : Reg)
  /-- `LD Rd,-Y`, R263. -/
  | ldYDec (d : Reg)
  /-- `LDD Rd,Y+q`, R264. -/
  | lddY (d : Reg) (q : BitVec 6)
  /-- `LD Rd,Z`, R265. -/
  | ldZ (d : Reg)
  /-- `LD Rd,Z+`, R266. -/
  | ldZInc (d : Reg)
  /-- `LD Rd,-Z`, R267. -/
  | ldZDec (d : Reg)
  /-- `LDD Rd,Z+q`, R268. -/
  | lddZ (d : Reg) (q : BitVec 6)
  /-- `STS k,Rr`, R269. -/
  | sts (k : BitVec 16) (r : Reg)
  /-- `STS k,Rr`, R270. -/
  | sts16 (k : BitVec 7) (r : Reg)
  /-- `ST X,Rr`, R271. -/
  | stX (r : Reg)
  /-- `ST X+,Rr`, R272. -/
  | stXInc (r : Reg)
  /-- `ST -X,Rr`, R273. -/
  | stXDec (r : Reg)
  /-- `ST Y,Rr`, R274. -/
  | stY (r : Reg)
  /-- `ST Y+,Rr`, R275. -/
  | stYInc (r : Reg)
  /-- `ST -Y,Rr`, R276. -/
  | stYDec (r : Reg)
  /-- `STD Y+q,Rr`, R277. -/
  | stdY (q : BitVec 6) (r : Reg)
  /-- `ST Z,Rr`, R278. -/
  | stZ (r : Reg)
  /-- `ST Z+,Rr`, R279. -/
  | stZInc (r : Reg)
  /-- `ST -Z,Rr`, R280. -/
  | stZDec (r : Reg)
  /-- `STD Z+q,Rr`, R281. -/
  | stdZ (q : BitVec 6) (r : Reg)
  /-- `LPM`, R282. -/
  | lpmR0
  /-- `LPM Rd,Z`, R283. -/
  | lpm (d : Reg)
  /-- `LPM Rd,Z+`, R284. -/
  | lpmInc (d : Reg)
  /-- `ELPM`, R285. -/
  | elpmR0
  /-- `ELPM Rd,Z`, R286. -/
  | elpm (d : Reg)
  /-- `ELPM Rd,Z+`, R287. -/
  | elpmInc (d : Reg)
  /-- `SPM`, R289. -/
  | spm
  /-- `SPM Z+`, R290. -/
  | spmInc
  /-- `IN Rd,A`, R291. -/
  | inIo (d : Reg) (A : BitVec 6)
  /-- `OUT A,Rr`, R292. -/
  | outIo (A : BitVec 6) (r : Reg)
  /-- `PUSH Rr`, R293. -/
  | push (r : Reg)
  /-- `POP Rd`, R294. -/
  | pop (d : Reg)
  /-- `XCH Z,Rd`, R295. -/
  | xch (d : Reg)
  /-- `LAS Z,Rd`, R296. -/
  | las (d : Reg)
  /-- `LAC Z,Rd`, R297. -/
  | lac (d : Reg)
  /-- `LAT Z,Rd`, R298. -/
  | lat (d : Reg)
  -- Bit and bit-test (Table 4-5; 44_bit_and_bittest.md)
  /-- `LSL Rd`, R321; alias of `ADD Rd,Rd`. -/
  | lsl (d : Reg)
  /-- `LSR Rd`, R322. -/
  | lsr (d : Reg)
  /-- `ROL Rd`, R323; alias of `ADC Rd,Rd`. -/
  | rol (d : Reg)
  /-- `ROR Rd`, R324. -/
  | ror (d : Reg)
  /-- `ASR Rd`, R325. -/
  | asr (d : Reg)
  /-- `SWAP Rd`, R326. -/
  | swap (d : Reg)
  /-- `SBI A,b`, R327. -/
  | sbi (A : BitVec 5) (b : Fin 8)
  /-- `CBI A,b`, R328. -/
  | cbi (A : BitVec 5) (b : Fin 8)
  /-- `BST Rd,b`, R329. -/
  | bst (d : Reg) (b : Fin 8)
  /-- `BLD Rd,b`, R330. -/
  | bld (d : Reg) (b : Fin 8)
  /-- `BSET s`, R331. -/
  | bset (s : Fin 8)
  /-- `BCLR s`, R332. -/
  | bclr (s : Fin 8)
  /-- `SEC`, R333; alias of `BSET 0`. -/
  | sec
  /-- `CLC`, R334; alias of `BCLR 0`. -/
  | clc
  /-- `SEN`, R335; alias of `BSET 2`. -/
  | sen
  /-- `CLN`, R336; alias of `BCLR 2`. -/
  | cln
  /-- `SEZ`, R337; alias of `BSET 1`. -/
  | sez
  /-- `CLZ`, R338; alias of `BCLR 1`. -/
  | clz
  /-- `SEI`, R339; alias of `BSET 7`. -/
  | sei
  /-- `CLI`, R340; alias of `BCLR 7`. -/
  | cli
  /-- `SES`, R341; alias of `BSET 4`. -/
  | ses
  /-- `CLS`, R342; alias of `BCLR 4`. -/
  | cls
  /-- `SEV`, R343; alias of `BSET 3`. -/
  | sev
  /-- `CLV`, R344; alias of `BCLR 3`. -/
  | clv
  /-- `SET`, R345; alias of `BSET 6`. -/
  | set
  /-- `CLT`, R346; alias of `BCLR 6`. -/
  | clt
  /-- `SEH`, R347; alias of `BSET 5`. -/
  | seh
  /-- `CLH`, R348; alias of `BCLR 5`. -/
  | clh
  -- MCU control (Table 4-6; 45_mcu_control.md)
  /-- `BREAK`, R360. -/
  | brk
  /-- `NOP`, R361. -/
  | nop
  /-- `SLEEP`, R362. -/
  | sleep
  /-- `WDR`, R363. -/
  | wdr
  deriving DecidableEq, Repr

end Sys2Proof
end

