-- ==== Sys2Proof/WellFormed.lean ====
section
/-! DEFINITION. Which instruction terms the encodings can express (the operand ranges of the instruction sections,
spec/10_state.md R24, spec/30_encoding.md R110), and which configurations are consistent (spec/00_scope.md R8-R11). -/

namespace Sys2Proof

/-- R16 to R31: what a 4-bit register field names (R110). -/
def highReg (d : Reg) : Bool := decide (16 ≤ d.val)

/-- R16 to R23: what a 3-bit register field names (R110). -/
def midReg (d : Reg) : Bool := decide (16 ≤ d.val ∧ d.val ≤ 23)

/-- R24, R26, R28, R30: the low register of an ADIW or SBIW pair (R110). -/
def pairReg (d : Reg) : Bool := decide (24 ≤ d.val ∧ d.val % 2 = 0)

/-- R0, R2, ..., R30: the low register of a MOVW pair (R110). -/
def evenReg (d : Reg) : Bool := decide (d.val % 2 = 0)

/-- Whether every operand is one the instruction's encoding can hold. -/
def Instr.wf : Instr → Bool
  | .add _ _ => true
  | .adc _ _ => true
  | .adiw d _ => pairReg d
  | .sub _ _ => true
  | .subi d _ => highReg d
  | .sbc _ _ => true
  | .sbci d _ => highReg d
  | .sbiw d _ => pairReg d
  | .and _ _ => true
  | .andi d _ => highReg d
  | .or _ _ => true
  | .ori d _ => highReg d
  | .eor _ _ => true
  | .com _ => true
  | .neg _ => true
  | .sbr d _ => highReg d
  | .cbr d _ => highReg d
  | .inc _ => true
  | .dec _ => true
  | .tst _ => true
  | .clr _ => true
  | .ser d => highReg d
  | .mul _ _ => true
  | .muls d r => highReg d && highReg r
  | .mulsu d r => midReg d && midReg r
  | .fmul d r => midReg d && midReg r
  | .fmuls d r => midReg d && midReg r
  | .fmulsu d r => midReg d && midReg r
  | .des _ => true
  | .rjmp _ => true
  | .ijmp => true
  | .eijmp => true
  | .jmp _ => true
  | .rcall _ => true
  | .icall => true
  | .eicall => true
  | .call _ => true
  | .ret => true
  | .reti => true
  | .cpse _ _ => true
  | .cp _ _ => true
  | .cpc _ _ => true
  | .cpi d _ => highReg d
  | .sbrc _ _ => true
  | .sbrs _ _ => true
  | .sbic _ _ => true
  | .sbis _ _ => true
  | .brbs _ _ => true
  | .brbc _ _ => true
  | .breq _ => true
  | .brne _ => true
  | .brcs _ => true
  | .brcc _ => true
  | .brsh _ => true
  | .brlo _ => true
  | .brmi _ => true
  | .brpl _ => true
  | .brge _ => true
  | .brlt _ => true
  | .brhs _ => true
  | .brhc _ => true
  | .brts _ => true
  | .brtc _ => true
  | .brvs _ => true
  | .brvc _ => true
  | .brie _ => true
  | .brid _ => true
  | .mov _ _ => true
  | .movw d r => evenReg d && evenReg r
  | .ldi d _ => highReg d
  | .lds _ _ => true
  | .lds16 d _ => highReg d
  | .ldX _ => true
  | .ldXInc _ => true
  | .ldXDec _ => true
  | .ldY _ => true
  | .ldYInc _ => true
  | .ldYDec _ => true
  | .lddY _ _ => true
  | .ldZ _ => true
  | .ldZInc _ => true
  | .ldZDec _ => true
  | .lddZ _ _ => true
  | .sts _ _ => true
  | .sts16 _ r => highReg r
  | .stX _ => true
  | .stXInc _ => true
  | .stXDec _ => true
  | .stY _ => true
  | .stYInc _ => true
  | .stYDec _ => true
  | .stdY _ _ => true
  | .stZ _ => true
  | .stZInc _ => true
  | .stZDec _ => true
  | .stdZ _ _ => true
  | .lpmR0 => true
  | .lpm _ => true
  | .lpmInc _ => true
  | .elpmR0 => true
  | .elpm _ => true
  | .elpmInc _ => true
  | .spm => true
  | .spmInc => true
  | .inIo _ _ => true
  | .outIo _ _ => true
  | .push _ => true
  | .pop _ => true
  | .xch _ => true
  | .las _ => true
  | .lac _ => true
  | .lat _ => true
  | .lsl _ => true
  | .lsr _ => true
  | .rol _ => true
  | .ror _ => true
  | .asr _ => true
  | .swap _ => true
  | .sbi _ _ => true
  | .cbi _ _ => true
  | .bst _ _ => true
  | .bld _ _ => true
  | .bset _ => true
  | .bclr _ => true
  | .sec => true
  | .clc => true
  | .sen => true
  | .cln => true
  | .sez => true
  | .clz => true
  | .sei => true
  | .cli => true
  | .ses => true
  | .cls => true
  | .sev => true
  | .clv => true
  | .set => true
  | .clt => true
  | .seh => true
  | .clh => true
  | .brk => true
  | .nop => true
  | .sleep => true
  | .wdr => true

/-- Two regions share no address. -/
def Region.disjoint (a b : Region) : Bool := decide (a.last < b.first ∨ b.last < a.first)

/-- A region is a nonempty range that its kind can hold: registers that exist on the core (R21), I/O locations 0 to 63,
SRAM up to `RAMEND` (R9). -/
def Region.wf (core : Core) (ramEnd : Nat) (g : Region) : Bool :=
  decide (g.first ≤ g.last) &&
    match g.kind with
    | .regFile => decide (g.base + (g.last - g.first) < 32) && (core != .AVRrc || decide (16 ≤ g.base))
    | .io => decide (g.base + (g.last - g.first) < 64)
    | .extIo => true
    | .sram => decide (g.last ≤ ramEnd)
    | .extSram => decide (g.last ≤ ramEnd)
    | .flash => true

/-- The consistency constraints of R8 to R10 and R32. -/
def Config.wf (c : Config) : Bool :=
  decide (c.flashEnd < 2 ^ c.pcBits.width) &&
  (match c.pcWrapBits with
    | none => true
    | some n => decide (n ≤ c.pcBits.width)) &&
  (!c.hasEind || c.pcBits == .bits22) &&
  (c.dataClass != .large || (c.hasRampX && c.hasRampY && c.hasRampZ && c.hasRampD)) &&
  decide (c.resetPc.toNat < 2 ^ c.pcBits.width) &&
  decide (c.resetSp.toNat < 2 ^ c.spBits.width) &&
  c.dataMap.all (Region.wf c.core c.ramEnd) &&
  decide (c.dataMap.Pairwise fun a b => Region.disjoint a b = true) &&
  c.vectorTable.all (fun e => decide (e.2.toNat < 2 ^ c.pcBits.width))

end Sys2Proof
end

