-- ==== Sys2Proof/Decode.lean ====
section
/-! DEFINITION. Decoding (spec/30_encoding.md R100-R116), total on any bytes and rejecting by name, and after it the
encoder, written from the same encoding lines. `Instr.canonical` is the instruction an alias stands for (R115). -/

namespace Sys2Proof

/-- Bits `lo + len - 1` to `lo` of an instruction word (R101, R102). -/
def field (w : Word) (lo len : Nat) : BitVec len := w.extractLsb' lo len

/-- The register a 5-bit field names (R110). -/
def regOf (f : BitVec 5) : Reg := ⟨f.toNat, f.isLt⟩

/-- The register a 4-bit field names: 16 + field (R110). -/
def regHigh (f : BitVec 4) : Reg := ⟨16 + f.toNat, by have := f.isLt; omega⟩

/-- The register a 3-bit field names: 16 + field (R110). -/
def regMid (f : BitVec 3) : Reg := ⟨16 + f.toNat, by have := f.isLt; omega⟩

/-- The register an ADIW or SBIW field names: 24 + 2 * field (R110). -/
def regPair (f : BitVec 2) : Reg := ⟨24 + 2 * f.toNat, by have := f.isLt; omega⟩

/-- The register a MOVW field names: 2 * field (R110). -/
def regEven (f : BitVec 4) : Reg := ⟨2 * f.toNat, by have := f.isLt; omega⟩

/-- The bit number a 3-bit field names (R111). -/
def bitOf (f : BitVec 3) : Fin 8 := ⟨f.toNat, f.isLt⟩

/-- Whether the first word is that of a two-word instruction, by its bits alone (R103). -/
def isTwoWord (w : Word) : Bool :=
  w &&& 0xFE0E == 0x940C || w &&& 0xFE0E == 0x940E || w &&& 0xFE0F == 0x9000 || w &&& 0xFE0F == 0x9200

/-- A canonical row of the opcode table: the word matches when its bits under `mask` are `pattern` (R104). -/
structure Row where
  form : Form
  mask : Word
  pattern : Word
  deriving DecidableEq, Repr

/-- The canonical rows by bits 15:12, the opcode map of R105. In nibble 8 the LD and ST rows, which have more 1 bits in
their masks, stand before the LDD and STD rows (R104 step 2). The AVRrc rows of R108 are in `findForm`. -/
def rowsOf (nibble : BitVec 4) : List Row :=
  match nibble.toNat with
  | 0 =>
    [⟨.add, 0xFC00, 0x0C00⟩, ⟨.sbc, 0xFC00, 0x0800⟩, ⟨.muls, 0xFF00, 0x0200⟩, ⟨.mulsu, 0xFF88, 0x0300⟩,
     ⟨.fmul, 0xFF88, 0x0308⟩, ⟨.fmuls, 0xFF88, 0x0380⟩, ⟨.fmulsu, 0xFF88, 0x0388⟩, ⟨.cpc, 0xFC00, 0x0400⟩,
     ⟨.movw, 0xFF00, 0x0100⟩, ⟨.nop, 0xFFFF, 0x0000⟩]
  | 1 => [⟨.adc, 0xFC00, 0x1C00⟩, ⟨.sub, 0xFC00, 0x1800⟩, ⟨.cpse, 0xFC00, 0x1000⟩, ⟨.cp, 0xFC00, 0x1400⟩]
  | 2 => [⟨.and, 0xFC00, 0x2000⟩, ⟨.or, 0xFC00, 0x2800⟩, ⟨.eor, 0xFC00, 0x2400⟩, ⟨.mov, 0xFC00, 0x2C00⟩]
  | 3 => [⟨.cpi, 0xF000, 0x3000⟩]
  | 4 => [⟨.sbci, 0xF000, 0x4000⟩]
  | 5 => [⟨.subi, 0xF000, 0x5000⟩]
  | 6 => [⟨.ori, 0xF000, 0x6000⟩]
  | 7 => [⟨.andi, 0xF000, 0x7000⟩]
  | 8 =>
    [⟨.ldY, 0xFE0F, 0x8008⟩, ⟨.ldZ, 0xFE0F, 0x8000⟩, ⟨.stY, 0xFE0F, 0x8208⟩, ⟨.stZ, 0xFE0F, 0x8200⟩,
     ⟨.lddY, 0xD208, 0x8008⟩, ⟨.lddZ, 0xD208, 0x8000⟩, ⟨.stdY, 0xD208, 0x8208⟩, ⟨.stdZ, 0xD208, 0x8200⟩]
  | 9 =>
    [⟨.adiw, 0xFF00, 0x9600⟩, ⟨.sbiw, 0xFF00, 0x9700⟩, ⟨.com, 0xFE0F, 0x9400⟩, ⟨.neg, 0xFE0F, 0x9401⟩,
     ⟨.inc, 0xFE0F, 0x9403⟩, ⟨.dec, 0xFE0F, 0x940A⟩, ⟨.mul, 0xFC00, 0x9C00⟩, ⟨.des, 0xFF0F, 0x940B⟩,
     ⟨.ijmp, 0xFFFF, 0x9409⟩, ⟨.eijmp, 0xFFFF, 0x9419⟩, ⟨.jmp, 0xFE0E, 0x940C⟩, ⟨.icall, 0xFFFF, 0x9509⟩,
     ⟨.eicall, 0xFFFF, 0x9519⟩, ⟨.call, 0xFE0E, 0x940E⟩, ⟨.ret, 0xFFFF, 0x9508⟩, ⟨.reti, 0xFFFF, 0x9518⟩,
     ⟨.sbic, 0xFF00, 0x9900⟩, ⟨.sbis, 0xFF00, 0x9B00⟩, ⟨.lds, 0xFE0F, 0x9000⟩, ⟨.ldX, 0xFE0F, 0x900C⟩,
     ⟨.ldXInc, 0xFE0F, 0x900D⟩, ⟨.ldXDec, 0xFE0F, 0x900E⟩, ⟨.ldYInc, 0xFE0F, 0x9009⟩, ⟨.ldYDec, 0xFE0F, 0x900A⟩,
     ⟨.ldZInc, 0xFE0F, 0x9001⟩, ⟨.ldZDec, 0xFE0F, 0x9002⟩, ⟨.sts, 0xFE0F, 0x9200⟩, ⟨.stX, 0xFE0F, 0x920C⟩,
     ⟨.stXInc, 0xFE0F, 0x920D⟩, ⟨.stXDec, 0xFE0F, 0x920E⟩, ⟨.stYInc, 0xFE0F, 0x9209⟩, ⟨.stYDec, 0xFE0F, 0x920A⟩,
     ⟨.stZInc, 0xFE0F, 0x9201⟩, ⟨.stZDec, 0xFE0F, 0x9202⟩, ⟨.lpmR0, 0xFFFF, 0x95C8⟩, ⟨.lpm, 0xFE0F, 0x9004⟩,
     ⟨.lpmInc, 0xFE0F, 0x9005⟩, ⟨.elpmR0, 0xFFFF, 0x95D8⟩, ⟨.elpm, 0xFE0F, 0x9006⟩, ⟨.elpmInc, 0xFE0F, 0x9007⟩,
     ⟨.spm, 0xFFFF, 0x95E8⟩, ⟨.spmInc, 0xFFFF, 0x95F8⟩, ⟨.push, 0xFE0F, 0x920F⟩, ⟨.pop, 0xFE0F, 0x900F⟩,
     ⟨.xch, 0xFE0F, 0x9204⟩, ⟨.las, 0xFE0F, 0x9205⟩, ⟨.lac, 0xFE0F, 0x9206⟩, ⟨.lat, 0xFE0F, 0x9207⟩,
     ⟨.lsr, 0xFE0F, 0x9406⟩, ⟨.ror, 0xFE0F, 0x9407⟩, ⟨.asr, 0xFE0F, 0x9405⟩, ⟨.swap, 0xFE0F, 0x9402⟩,
     ⟨.sbi, 0xFF00, 0x9A00⟩, ⟨.cbi, 0xFF00, 0x9800⟩, ⟨.bset, 0xFF8F, 0x9408⟩, ⟨.bclr, 0xFF8F, 0x9488⟩,
     ⟨.brk, 0xFFFF, 0x9598⟩, ⟨.sleep, 0xFFFF, 0x9588⟩, ⟨.wdr, 0xFFFF, 0x95A8⟩]
  | 10 => [⟨.lddY, 0xD208, 0x8008⟩, ⟨.lddZ, 0xD208, 0x8000⟩, ⟨.stdY, 0xD208, 0x8208⟩, ⟨.stdZ, 0xD208, 0x8200⟩]
  | 11 => [⟨.inIo, 0xF800, 0xB000⟩, ⟨.outIo, 0xF800, 0xB800⟩]
  | 12 => [⟨.rjmp, 0xF000, 0xC000⟩]
  | 13 => [⟨.rcall, 0xF000, 0xD000⟩]
  | 14 => [⟨.ldi, 0xF000, 0xE000⟩]
  | _ =>
    [⟨.sbrc, 0xFE08, 0xFC00⟩, ⟨.sbrs, 0xFE08, 0xFE00⟩, ⟨.brbs, 0xFC00, 0xF000⟩, ⟨.brbc, 0xFC00, 0xF400⟩,
     ⟨.bst, 0xFE08, 0xFA00⟩, ⟨.bld, 0xFE08, 0xF800⟩]

/-- The row a first word decodes to (R104 steps 1 and 2). On AVRrc every word `1010 xxxx xxxx xxxx` is a 16-bit LDS or
STS (R108). -/
def findForm (core : Core) (w : Word) : Option Form :=
  if core = .AVRrc ∧ field w 12 4 = 0b1010 then
    some (if w.getLsbD 11 then .sts16 else .lds16)
  else
    ((rowsOf (field w 12 4)).find? fun row => w &&& row.mask == row.pattern).map Row.form

/-- The cores whose column of Tables 4-2 to 4-6 has the form (R7; the `cores` of the opcode table). For SPM Z+ R290 and
the opcode table differ on AVR and AVRe, and the configuration says which holds (log 20). -/
def Form.cores (c : Config) (f : Form) : List Core :=
  match f with
  | .add | .adc | .sub | .subi | .sbc | .sbci | .and | .andi | .or | .ori | .eor | .com | .neg | .inc | .dec
  | .rjmp | .ijmp | .rcall | .icall | .ret | .reti | .cpse | .cp | .cpc | .cpi | .sbrc | .sbrs | .sbic | .sbis
  | .brbs | .brbc | .mov | .ldi | .ldX | .ldXInc | .ldXDec | .ldY | .ldYInc | .ldYDec | .ldZ | .ldZInc
  | .ldZDec | .stX | .stXInc | .stXDec | .stY | .stYInc | .stYDec | .stZ | .stZInc | .stZDec | .inIo | .outIo
  | .push | .pop | .lsr | .ror | .asr | .swap | .sbi | .cbi | .bst | .bld | .bset | .bclr | .brk | .nop
  | .sleep | .wdr =>
      [.AVR, .AVRe, .AVRxm, .AVRxt, .AVRrc]
  | .adiw | .sbiw | .eijmp | .jmp | .eicall | .call | .lds | .lddY | .lddZ | .sts | .stdY | .stdZ | .lpmR0
  | .elpmR0 | .elpm | .elpmInc | .spm =>
      [.AVR, .AVRe, .AVRxm, .AVRxt]
  | .spmInc =>
      if c.spmIncClassic then [.AVR, .AVRe, .AVRxm, .AVRxt] else [.AVRxm, .AVRxt]
  | .mul | .muls | .mulsu | .fmul | .fmuls | .fmulsu | .movw | .lpm | .lpmInc =>
      [.AVRe, .AVRxm, .AVRxt]
  | .des | .xch | .las | .lac | .lat =>
      [.AVRxm]
  | .lds16 | .sts16 =>
      [.AVRrc]

/-- Whether the form is one of the six multiplies, which an AVRe has only with `HAS_MUL` (R7, R180). -/
def Form.isMultiply (f : Form) : Bool :=
  f == .mul || f == .muls || f == .mulsu || f == .fmul || f == .fmuls || f == .fmulsu

/-- Whether the form needs EIND (R10: EIJMP or EICALL in `AVAIL` implies `HAS_EIND`). -/
def Form.needsEind (f : Form) : Bool := f == .eijmp || f == .eicall

/-- Whether the form needs RAMPZ (R10: ELPM in `AVAIL` implies `HAS_RAMPZ`). -/
def Form.needsRampZ (f : Form) : Bool := f == .elpmR0 || f == .elpm || f == .elpmInc

/-- Whether the form is in `AVAIL` for the configuration's core (R7, R10, R109). -/
def available (c : Config) (f : Form) : Bool :=
  (f.cores c).contains c.core && !c.absent.contains f &&
    (!(f.isMultiply && c.core == .AVRe) || c.hasMul) &&
    (!f.needsEind || c.hasEind) && (!f.needsRampZ || c.hasRampZ)

/-- The forms of two words (R100). -/
def Form.twoWords (f : Form) : Bool := f == .jmp || f == .call || f == .lds || f == .sts

/-- The 5-bit register field `d` in bits 8:4 (R110). -/
def fieldD (w : Word) : Reg := regOf (field w 4 5)

/-- The 5-bit register field `r` in bit 9 and bits 3:0 (R110). -/
def fieldR (w : Word) : Reg := regOf (field w 9 1 ++ field w 0 4)

/-- The 8-bit constant in bits 11:8 and 3:0 (R111). -/
def fieldK8 (w : Word) : Byte := field w 8 4 ++ field w 0 4

/-- The 6-bit constant in bits 7:6 and 3:0 (R111). -/
def fieldK6 (w : Word) : BitVec 6 := field w 6 2 ++ field w 0 4

/-- The 6-bit I/O location in bits 10:9 and 3:0 (R111). -/
def fieldA6 (w : Word) : BitVec 6 := field w 9 2 ++ field w 0 4

/-- The 6-bit displacement in bit 13, bits 11:10 and bits 2:0 (R111). -/
def fieldQ (w : Word) : BitVec 6 := field w 13 1 ++ field w 10 2 ++ field w 0 3

/-- The 7-bit address field of the 16-bit LDS and STS in bits 10:8 and 3:0 (R111). -/
def fieldK7 (w : Word) : BitVec 7 := field w 8 3 ++ field w 0 4

/-- The 22-bit program address: word 1 bits 8:4, word 1 bit 0, word 2 (R111). -/
def fieldK22 (w w2 : Word) : BitVec 22 := field w 4 5 ++ field w 0 1 ++ w2

/-- The instruction of a row with the fields of its words (R104 step 6, R110, R111). -/
def buildInstr (f : Form) (w w2 : Word) : Instr :=
  match f with
  | .add => .add (fieldD w) (fieldR w)
  | .adc => .adc (fieldD w) (fieldR w)
  | .adiw => .adiw (regPair (field w 4 2)) (fieldK6 w)
  | .sub => .sub (fieldD w) (fieldR w)
  | .subi => .subi (regHigh (field w 4 4)) (fieldK8 w)
  | .sbc => .sbc (fieldD w) (fieldR w)
  | .sbci => .sbci (regHigh (field w 4 4)) (fieldK8 w)
  | .sbiw => .sbiw (regPair (field w 4 2)) (fieldK6 w)
  | .and => .and (fieldD w) (fieldR w)
  | .andi => .andi (regHigh (field w 4 4)) (fieldK8 w)
  | .or => .or (fieldD w) (fieldR w)
  | .ori => .ori (regHigh (field w 4 4)) (fieldK8 w)
  | .eor => .eor (fieldD w) (fieldR w)
  | .com => .com (fieldD w)
  | .neg => .neg (fieldD w)
  | .inc => .inc (fieldD w)
  | .dec => .dec (fieldD w)
  | .mul => .mul (fieldD w) (fieldR w)
  | .muls => .muls (regHigh (field w 4 4)) (regHigh (field w 0 4))
  | .mulsu => .mulsu (regMid (field w 4 3)) (regMid (field w 0 3))
  | .fmul => .fmul (regMid (field w 4 3)) (regMid (field w 0 3))
  | .fmuls => .fmuls (regMid (field w 4 3)) (regMid (field w 0 3))
  | .fmulsu => .fmulsu (regMid (field w 4 3)) (regMid (field w 0 3))
  | .des => .des (field w 4 4)
  | .rjmp => .rjmp (field w 0 12)
  | .ijmp => .ijmp
  | .eijmp => .eijmp
  | .jmp => .jmp (fieldK22 w w2)
  | .rcall => .rcall (field w 0 12)
  | .icall => .icall
  | .eicall => .eicall
  | .call => .call (fieldK22 w w2)
  | .ret => .ret
  | .reti => .reti
  | .cpse => .cpse (fieldD w) (fieldR w)
  | .cp => .cp (fieldD w) (fieldR w)
  | .cpc => .cpc (fieldD w) (fieldR w)
  | .cpi => .cpi (regHigh (field w 4 4)) (fieldK8 w)
  | .sbrc => .sbrc (fieldD w) (bitOf (field w 0 3))
  | .sbrs => .sbrs (fieldD w) (bitOf (field w 0 3))
  | .sbic => .sbic (field w 3 5) (bitOf (field w 0 3))
  | .sbis => .sbis (field w 3 5) (bitOf (field w 0 3))
  | .brbs => .brbs (bitOf (field w 0 3)) (field w 3 7)
  | .brbc => .brbc (bitOf (field w 0 3)) (field w 3 7)
  | .mov => .mov (fieldD w) (fieldR w)
  | .movw => .movw (regEven (field w 4 4)) (regEven (field w 0 4))
  | .ldi => .ldi (regHigh (field w 4 4)) (fieldK8 w)
  | .lds => .lds (fieldD w) w2
  | .lds16 => .lds16 (regHigh (field w 4 4)) (fieldK7 w)
  | .ldX => .ldX (fieldD w)
  | .ldXInc => .ldXInc (fieldD w)
  | .ldXDec => .ldXDec (fieldD w)
  | .ldY => .ldY (fieldD w)
  | .ldYInc => .ldYInc (fieldD w)
  | .ldYDec => .ldYDec (fieldD w)
  | .lddY => .lddY (fieldD w) (fieldQ w)
  | .ldZ => .ldZ (fieldD w)
  | .ldZInc => .ldZInc (fieldD w)
  | .ldZDec => .ldZDec (fieldD w)
  | .lddZ => .lddZ (fieldD w) (fieldQ w)
  | .sts => .sts w2 (fieldD w)
  | .sts16 => .sts16 (fieldK7 w) (regHigh (field w 4 4))
  | .stX => .stX (fieldD w)
  | .stXInc => .stXInc (fieldD w)
  | .stXDec => .stXDec (fieldD w)
  | .stY => .stY (fieldD w)
  | .stYInc => .stYInc (fieldD w)
  | .stYDec => .stYDec (fieldD w)
  | .stdY => .stdY (fieldQ w) (fieldD w)
  | .stZ => .stZ (fieldD w)
  | .stZInc => .stZInc (fieldD w)
  | .stZDec => .stZDec (fieldD w)
  | .stdZ => .stdZ (fieldQ w) (fieldD w)
  | .lpmR0 => .lpmR0
  | .lpm => .lpm (fieldD w)
  | .lpmInc => .lpmInc (fieldD w)
  | .elpmR0 => .elpmR0
  | .elpm => .elpm (fieldD w)
  | .elpmInc => .elpmInc (fieldD w)
  | .spm => .spm
  | .spmInc => .spmInc
  | .inIo => .inIo (fieldD w) (fieldA6 w)
  | .outIo => .outIo (fieldA6 w) (fieldD w)
  | .push => .push (fieldD w)
  | .pop => .pop (fieldD w)
  | .xch => .xch (fieldD w)
  | .las => .las (fieldD w)
  | .lac => .lac (fieldD w)
  | .lat => .lat (fieldD w)
  | .lsr => .lsr (fieldD w)
  | .ror => .ror (fieldD w)
  | .asr => .asr (fieldD w)
  | .swap => .swap (fieldD w)
  | .sbi => .sbi (field w 3 5) (bitOf (field w 0 3))
  | .cbi => .cbi (field w 3 5) (bitOf (field w 0 3))
  | .bst => .bst (fieldD w) (bitOf (field w 0 3))
  | .bld => .bld (fieldD w) (bitOf (field w 0 3))
  | .bset => .bset (bitOf (field w 4 3))
  | .bclr => .bclr (bitOf (field w 4 3))
  | .brk => .brk
  | .nop => .nop
  | .sleep => .sleep
  | .wdr => .wdr

/-- The explicit register operands of an instruction, destination first. -/
def Instr.regs : Instr → List Reg
  | .add d r => [d, r]
  | .adc d r => [d, r]
  | .adiw d _ => [d]
  | .sub d r => [d, r]
  | .subi d _ => [d]
  | .sbc d r => [d, r]
  | .sbci d _ => [d]
  | .sbiw d _ => [d]
  | .and d r => [d, r]
  | .andi d _ => [d]
  | .or d r => [d, r]
  | .ori d _ => [d]
  | .eor d r => [d, r]
  | .com d => [d]
  | .neg d => [d]
  | .sbr d _ => [d]
  | .cbr d _ => [d]
  | .inc d => [d]
  | .dec d => [d]
  | .tst d => [d]
  | .clr d => [d]
  | .ser d => [d]
  | .mul d r => [d, r]
  | .muls d r => [d, r]
  | .mulsu d r => [d, r]
  | .fmul d r => [d, r]
  | .fmuls d r => [d, r]
  | .fmulsu d r => [d, r]
  | .des _ => []
  | .rjmp _ => []
  | .ijmp => []
  | .eijmp => []
  | .jmp _ => []
  | .rcall _ => []
  | .icall => []
  | .eicall => []
  | .call _ => []
  | .ret => []
  | .reti => []
  | .cpse d r => [d, r]
  | .cp d r => [d, r]
  | .cpc d r => [d, r]
  | .cpi d _ => [d]
  | .sbrc r _ => [r]
  | .sbrs r _ => [r]
  | .sbic _ _ => []
  | .sbis _ _ => []
  | .brbs _ _ => []
  | .brbc _ _ => []
  | .breq _ => []
  | .brne _ => []
  | .brcs _ => []
  | .brcc _ => []
  | .brsh _ => []
  | .brlo _ => []
  | .brmi _ => []
  | .brpl _ => []
  | .brge _ => []
  | .brlt _ => []
  | .brhs _ => []
  | .brhc _ => []
  | .brts _ => []
  | .brtc _ => []
  | .brvs _ => []
  | .brvc _ => []
  | .brie _ => []
  | .brid _ => []
  | .mov d r => [d, r]
  | .movw d r => [d, r]
  | .ldi d _ => [d]
  | .lds d _ => [d]
  | .lds16 d _ => [d]
  | .ldX d => [d]
  | .ldXInc d => [d]
  | .ldXDec d => [d]
  | .ldY d => [d]
  | .ldYInc d => [d]
  | .ldYDec d => [d]
  | .lddY d _ => [d]
  | .ldZ d => [d]
  | .ldZInc d => [d]
  | .ldZDec d => [d]
  | .lddZ d _ => [d]
  | .sts _ r => [r]
  | .sts16 _ r => [r]
  | .stX r => [r]
  | .stXInc r => [r]
  | .stXDec r => [r]
  | .stY r => [r]
  | .stYInc r => [r]
  | .stYDec r => [r]
  | .stdY _ r => [r]
  | .stZ r => [r]
  | .stZInc r => [r]
  | .stZDec r => [r]
  | .stdZ _ r => [r]
  | .lpmR0 => []
  | .lpm d => [d]
  | .lpmInc d => [d]
  | .elpmR0 => []
  | .elpm d => [d]
  | .elpmInc d => [d]
  | .spm => []
  | .spmInc => []
  | .inIo d _ => [d]
  | .outIo _ r => [r]
  | .push r => [r]
  | .pop d => [d]
  | .xch d => [d]
  | .las d => [d]
  | .lac d => [d]
  | .lat d => [d]
  | .lsl d => [d]
  | .lsr d => [d]
  | .rol d => [d]
  | .ror d => [d]
  | .asr d => [d]
  | .swap d => [d]
  | .sbi _ _ => []
  | .cbi _ _ => []
  | .bst d _ => [d]
  | .bld d _ => [d]
  | .bset _ => []
  | .bclr _ => []
  | .sec => []
  | .clc => []
  | .sen => []
  | .cln => []
  | .sez => []
  | .clz => []
  | .sei => []
  | .cli => []
  | .ses => []
  | .cls => []
  | .sev => []
  | .clv => []
  | .set => []
  | .clt => []
  | .seh => []
  | .clh => []
  | .brk => []
  | .nop => []
  | .sleep => []
  | .wdr => []

/-- Why a decoding is rejected, in the order R378 tests. -/
inductive DecodeError where
  /-- No first word. -/
  | noFirstWord
  /-- The word matches no opcode line (R107, R373). -/
  | reserved (w : Word)
  /-- The form is not in `AVAIL` for this core (R109, R372). -/
  | unavailable (f : Form)
  /-- No second word for a two-word instruction. -/
  | noSecondWord
  /-- AVRrc: a register below 16 (R113, R374). -/
  | registerOutOfRange (r : Reg)
  deriving DecidableEq, Repr

/-- The register check of R113: on AVRrc an instruction that names a register below 16 is out of range. DESIGN CHOICE
(log 48): where both fields are below 16 the spec does not say which register the fault reports; it is the first in
`Instr.regs`, the destination. -/
def checkRegs (core : Core) (i : Instr) : Except DecodeError Instr :=
  match if core = .AVRrc then i.regs.find? (fun r => decide (r.val < 16)) else none with
  | some r => .error (.registerOutOfRange r)
  | none => .ok i

/-- Decode the instruction at the head of the bytes, each word with its low byte first (R68), and answer it with the
bytes after it (R104). -/
def decode (c : Config) (bytes : List Byte) : Except DecodeError (Instr × List Byte) :=
  match bytes with
  | lo :: hi :: rest =>
    let w : Word := hi ++ lo
    match findForm c.core w with
    | none => .error (.reserved w)
    | some f =>
      if available c f then
        if f.twoWords then
          match rest with
          | lo2 :: hi2 :: rest2 => (checkRegs c.core (buildInstr f w (hi2 ++ lo2))).map fun i => (i, rest2)
          | _ => .error .noSecondWord
        else (checkRegs c.core (buildInstr f w 0)).map fun i => (i, rest)
      else .error (.unavailable f)
  | _ => .error .noFirstWord

/-- The instruction a word decodes to as it is executed: an alias becomes its canonical instruction (R115), and LDD and
STD with q = 0 become the LD and ST of the same bits (R104 step 2). -/
def Instr.canonical (i : Instr) : Instr :=
  match i with
  | .add d r => .add d r
  | .adc d r => .adc d r
  | .adiw d K => .adiw d K
  | .sub d r => .sub d r
  | .subi d K => .subi d K
  | .sbc d r => .sbc d r
  | .sbci d K => .sbci d K
  | .sbiw d K => .sbiw d K
  | .and d r => .and d r
  | .andi d K => .andi d K
  | .or d r => .or d r
  | .ori d K => .ori d K
  | .eor d r => .eor d r
  | .com d => .com d
  | .neg d => .neg d
  | .sbr d K => .ori d K
  | .cbr d K => .andi d (0xFF - K)
  | .inc d => .inc d
  | .dec d => .dec d
  | .tst d => .and d d
  | .clr d => .eor d d
  | .ser d => .ldi d 0xFF
  | .mul d r => .mul d r
  | .muls d r => .muls d r
  | .mulsu d r => .mulsu d r
  | .fmul d r => .fmul d r
  | .fmuls d r => .fmuls d r
  | .fmulsu d r => .fmulsu d r
  | .des K => .des K
  | .rjmp k => .rjmp k
  | .ijmp => .ijmp
  | .eijmp => .eijmp
  | .jmp k => .jmp k
  | .rcall k => .rcall k
  | .icall => .icall
  | .eicall => .eicall
  | .call k => .call k
  | .ret => .ret
  | .reti => .reti
  | .cpse d r => .cpse d r
  | .cp d r => .cp d r
  | .cpc d r => .cpc d r
  | .cpi d K => .cpi d K
  | .sbrc r b => .sbrc r b
  | .sbrs r b => .sbrs r b
  | .sbic A b => .sbic A b
  | .sbis A b => .sbis A b
  | .brbs s k => .brbs s k
  | .brbc s k => .brbc s k
  | .breq k => .brbs 1 k
  | .brne k => .brbc 1 k
  | .brcs k => .brbs 0 k
  | .brcc k => .brbc 0 k
  | .brsh k => .brbc 0 k
  | .brlo k => .brbs 0 k
  | .brmi k => .brbs 2 k
  | .brpl k => .brbc 2 k
  | .brge k => .brbc 4 k
  | .brlt k => .brbs 4 k
  | .brhs k => .brbs 5 k
  | .brhc k => .brbc 5 k
  | .brts k => .brbs 6 k
  | .brtc k => .brbc 6 k
  | .brvs k => .brbs 3 k
  | .brvc k => .brbc 3 k
  | .brie k => .brbs 7 k
  | .brid k => .brbc 7 k
  | .mov d r => .mov d r
  | .movw d r => .movw d r
  | .ldi d K => .ldi d K
  | .lds d k => .lds d k
  | .lds16 d k => .lds16 d k
  | .ldX d => .ldX d
  | .ldXInc d => .ldXInc d
  | .ldXDec d => .ldXDec d
  | .ldY d => .ldY d
  | .ldYInc d => .ldYInc d
  | .ldYDec d => .ldYDec d
  | .lddY d q => if q = 0 then .ldY d else .lddY d q
  | .ldZ d => .ldZ d
  | .ldZInc d => .ldZInc d
  | .ldZDec d => .ldZDec d
  | .lddZ d q => if q = 0 then .ldZ d else .lddZ d q
  | .sts k r => .sts k r
  | .sts16 k r => .sts16 k r
  | .stX r => .stX r
  | .stXInc r => .stXInc r
  | .stXDec r => .stXDec r
  | .stY r => .stY r
  | .stYInc r => .stYInc r
  | .stYDec r => .stYDec r
  | .stdY q r => if q = 0 then .stY r else .stdY q r
  | .stZ r => .stZ r
  | .stZInc r => .stZInc r
  | .stZDec r => .stZDec r
  | .stdZ q r => if q = 0 then .stZ r else .stdZ q r
  | .lpmR0 => .lpmR0
  | .lpm d => .lpm d
  | .lpmInc d => .lpmInc d
  | .elpmR0 => .elpmR0
  | .elpm d => .elpm d
  | .elpmInc d => .elpmInc d
  | .spm => .spm
  | .spmInc => .spmInc
  | .inIo d A => .inIo d A
  | .outIo A r => .outIo A r
  | .push r => .push r
  | .pop d => .pop d
  | .xch d => .xch d
  | .las d => .las d
  | .lac d => .lac d
  | .lat d => .lat d
  | .lsl d => .add d d
  | .lsr d => .lsr d
  | .rol d => .adc d d
  | .ror d => .ror d
  | .asr d => .asr d
  | .swap d => .swap d
  | .sbi A b => .sbi A b
  | .cbi A b => .cbi A b
  | .bst d b => .bst d b
  | .bld d b => .bld d b
  | .bset s => .bset s
  | .bclr s => .bclr s
  | .sec => .bset 0
  | .clc => .bclr 0
  | .sen => .bset 2
  | .cln => .bclr 2
  | .sez => .bset 1
  | .clz => .bclr 1
  | .sei => .bset 7
  | .cli => .bclr 7
  | .ses => .bset 4
  | .cls => .bclr 4
  | .sev => .bset 3
  | .clv => .bclr 3
  | .set => .bset 6
  | .clt => .bclr 6
  | .seh => .bset 5
  | .clh => .bclr 5
  | .brk => .brk
  | .nop => .nop
  | .sleep => .sleep
  | .wdr => .wdr

/-- The row of the opcode table an instruction belongs to, an alias that of its canonical instruction. -/
def Instr.form (i : Instr) : Form :=
  match i with
  | .add _ _ => .add
  | .adc _ _ => .adc
  | .adiw _ _ => .adiw
  | .sub _ _ => .sub
  | .subi _ _ => .subi
  | .sbc _ _ => .sbc
  | .sbci _ _ => .sbci
  | .sbiw _ _ => .sbiw
  | .and _ _ => .and
  | .andi _ _ => .andi
  | .or _ _ => .or
  | .ori _ _ => .ori
  | .eor _ _ => .eor
  | .com _ => .com
  | .neg _ => .neg
  | .sbr _ _ => .ori
  | .cbr _ _ => .andi
  | .inc _ => .inc
  | .dec _ => .dec
  | .tst _ => .and
  | .clr _ => .eor
  | .ser _ => .ldi
  | .mul _ _ => .mul
  | .muls _ _ => .muls
  | .mulsu _ _ => .mulsu
  | .fmul _ _ => .fmul
  | .fmuls _ _ => .fmuls
  | .fmulsu _ _ => .fmulsu
  | .des _ => .des
  | .rjmp _ => .rjmp
  | .ijmp => .ijmp
  | .eijmp => .eijmp
  | .jmp _ => .jmp
  | .rcall _ => .rcall
  | .icall => .icall
  | .eicall => .eicall
  | .call _ => .call
  | .ret => .ret
  | .reti => .reti
  | .cpse _ _ => .cpse
  | .cp _ _ => .cp
  | .cpc _ _ => .cpc
  | .cpi _ _ => .cpi
  | .sbrc _ _ => .sbrc
  | .sbrs _ _ => .sbrs
  | .sbic _ _ => .sbic
  | .sbis _ _ => .sbis
  | .brbs _ _ => .brbs
  | .brbc _ _ => .brbc
  | .breq _ => .brbs
  | .brne _ => .brbc
  | .brcs _ => .brbs
  | .brcc _ => .brbc
  | .brsh _ => .brbc
  | .brlo _ => .brbs
  | .brmi _ => .brbs
  | .brpl _ => .brbc
  | .brge _ => .brbc
  | .brlt _ => .brbs
  | .brhs _ => .brbs
  | .brhc _ => .brbc
  | .brts _ => .brbs
  | .brtc _ => .brbc
  | .brvs _ => .brbs
  | .brvc _ => .brbc
  | .brie _ => .brbs
  | .brid _ => .brbc
  | .mov _ _ => .mov
  | .movw _ _ => .movw
  | .ldi _ _ => .ldi
  | .lds _ _ => .lds
  | .lds16 _ _ => .lds16
  | .ldX _ => .ldX
  | .ldXInc _ => .ldXInc
  | .ldXDec _ => .ldXDec
  | .ldY _ => .ldY
  | .ldYInc _ => .ldYInc
  | .ldYDec _ => .ldYDec
  | .lddY _ _ => .lddY
  | .ldZ _ => .ldZ
  | .ldZInc _ => .ldZInc
  | .ldZDec _ => .ldZDec
  | .lddZ _ _ => .lddZ
  | .sts _ _ => .sts
  | .sts16 _ _ => .sts16
  | .stX _ => .stX
  | .stXInc _ => .stXInc
  | .stXDec _ => .stXDec
  | .stY _ => .stY
  | .stYInc _ => .stYInc
  | .stYDec _ => .stYDec
  | .stdY _ _ => .stdY
  | .stZ _ => .stZ
  | .stZInc _ => .stZInc
  | .stZDec _ => .stZDec
  | .stdZ _ _ => .stdZ
  | .lpmR0 => .lpmR0
  | .lpm _ => .lpm
  | .lpmInc _ => .lpmInc
  | .elpmR0 => .elpmR0
  | .elpm _ => .elpm
  | .elpmInc _ => .elpmInc
  | .spm => .spm
  | .spmInc => .spmInc
  | .inIo _ _ => .inIo
  | .outIo _ _ => .outIo
  | .push _ => .push
  | .pop _ => .pop
  | .xch _ => .xch
  | .las _ => .las
  | .lac _ => .lac
  | .lat _ => .lat
  | .lsl _ => .add
  | .lsr _ => .lsr
  | .rol _ => .adc
  | .ror _ => .ror
  | .asr _ => .asr
  | .swap _ => .swap
  | .sbi _ _ => .sbi
  | .cbi _ _ => .cbi
  | .bst _ _ => .bst
  | .bld _ _ => .bld
  | .bset _ => .bset
  | .bclr _ => .bclr
  | .sec => .bset
  | .clc => .bclr
  | .sen => .bset
  | .cln => .bclr
  | .sez => .bset
  | .clz => .bclr
  | .sei => .bset
  | .cli => .bclr
  | .ses => .bset
  | .cls => .bclr
  | .sev => .bset
  | .clv => .bclr
  | .set => .bset
  | .clt => .bclr
  | .seh => .bset
  | .clh => .bclr
  | .brk => .brk
  | .nop => .nop
  | .sleep => .sleep
  | .wdr => .wdr

/-- The five bits that name a register (R110). -/
def bits5 (r : Reg) : BitVec 5 := BitVec.ofNat 5 r.val

/-- The four bits that name R16 to R31 (R110). -/
def bitsHigh (r : Reg) : BitVec 4 := BitVec.ofNat 4 (r.val - 16)

/-- The three bits that name R16 to R23 (R110). -/
def bitsMid (r : Reg) : BitVec 3 := BitVec.ofNat 3 (r.val - 16)

/-- The two bits that name R24, R26, R28 or R30 (R110). -/
def bitsPair (r : Reg) : BitVec 2 := BitVec.ofNat 2 ((r.val - 24) / 2)

/-- The four bits that name an even register (R110). -/
def bitsEven (r : Reg) : BitVec 4 := BitVec.ofNat 4 (r.val / 2)

/-- The three bits of a bit number (R111). -/
def bits3 (b : Fin 8) : BitVec 3 := BitVec.ofNat 3 b.val

/-- Format `RR5`: `oooo oord dddd rrrr` (R102). -/
def encRR5 (op : BitVec 6) (d r : Reg) : Word :=
  op ++ (bits5 r).extractLsb' 4 1 ++ bits5 d ++ (bits5 r).extractLsb' 0 4

/-- Format `RI8`: `oooo KKKK dddd KKKK` (R102). -/
def encRI8 (op : BitVec 4) (d : Reg) (K : Byte) : Word :=
  op ++ K.extractLsb' 4 4 ++ bitsHigh d ++ K.extractLsb' 0 4

/-- Formats `R1` and `LDST`: `oooo oood dddd oooo` (R102). -/
def encOneReg (op : BitVec 7) (d : Reg) (mode : BitVec 4) : Word := op ++ bits5 d ++ mode

/-- Format `IW`: `oooo oooo KKdd KKKK` (R102). -/
def encIW (op : BitVec 8) (d : Reg) (K : BitVec 6) : Word :=
  op ++ K.extractLsb' 4 2 ++ bitsPair d ++ K.extractLsb' 0 4

/-- Format `BR`: `oooo ookk kkkk ksss` (R102). -/
def encBR (op : BitVec 6) (s : Fin 8) (k : BitVec 7) : Word := op ++ k ++ bits3 s

/-- Format `RJ`: `oooo kkkk kkkk kkkk` (R102). -/
def encRJ (op : BitVec 4) (k : BitVec 12) : Word := op ++ k

/-- The first word of format `JC32`: `1001 010k kkkk 11ok` (R102). -/
def encJC32 (op : BitVec 3) (k : BitVec 22) : Word :=
  0b1001010#7 ++ k.extractLsb' 17 5 ++ op ++ k.extractLsb' 16 1

/-- Format `DS16`: `1010 okkk dddd kkkk` (R102). -/
def encDS16 (op : BitVec 5) (d : Reg) (k : BitVec 7) : Word :=
  op ++ k.extractLsb' 4 3 ++ bitsHigh d ++ k.extractLsb' 0 4

/-- Format `DISP`: `10q0 qqod dddd yqqq` (R102). -/
def encDISP (store y : BitVec 1) (d : Reg) (q : BitVec 6) : Word :=
  0b10#2 ++ q.extractLsb' 5 1 ++ 0b0#1 ++ q.extractLsb' 3 2 ++ store ++ bits5 d ++ y ++ q.extractLsb' 0 3

/-- Format `IOA6`: `1011 oAAd dddd AAAA` (R102). -/
def encIOA6 (op : BitVec 5) (d : Reg) (A : BitVec 6) : Word :=
  op ++ A.extractLsb' 4 2 ++ bits5 d ++ A.extractLsb' 0 4

/-- Format `IOB`: `1001 10oo AAAA Abbb` (R102). -/
def encIOB (op : BitVec 8) (A : BitVec 5) (b : Fin 8) : Word := op ++ A ++ bits3 b

/-- Format `RB`: `1111 1ood dddd 0bbb` (R102). -/
def encRB (op : BitVec 7) (d : Reg) (b : Fin 8) : Word := op ++ bits5 d ++ 0b0#1 ++ bits3 b

/-- Format `SF`: `1001 0100 osss 1000` (R102). -/
def encSF (op : BitVec 1) (s : Fin 8) : Word := 0b10010100#8 ++ op ++ bits3 s ++ 0b1000#4

/-- Format `MUL3`: `0000 0011 oddd orrr` (R102). -/
def encMUL3 (o7 o3 : BitVec 1) (d r : Reg) : Word := 0b00000011#8 ++ o7 ++ bitsMid d ++ o3 ++ bitsMid r

/-- The words of an instruction, first word first. -/
def encode (i : Instr) : List Word :=
  match i with
  | .add d r => [encRR5 0b000011 d r]
  | .adc d r => [encRR5 0b000111 d r]
  | .adiw d K => [encIW 0b10010110 d K]
  | .sub d r => [encRR5 0b000110 d r]
  | .subi d K => [encRI8 0b0101 d K]
  | .sbc d r => [encRR5 0b000010 d r]
  | .sbci d K => [encRI8 0b0100 d K]
  | .sbiw d K => [encIW 0b10010111 d K]
  | .and d r => [encRR5 0b001000 d r]
  | .andi d K => [encRI8 0b0111 d K]
  | .or d r => [encRR5 0b001010 d r]
  | .ori d K => [encRI8 0b0110 d K]
  | .eor d r => [encRR5 0b001001 d r]
  | .com d => [encOneReg 0b1001010 d 0b0000]
  | .neg d => [encOneReg 0b1001010 d 0b0001]
  | .sbr d K => [encRI8 0b0110 d K]
  | .cbr d K => [encRI8 0b0111 d (0xFF - K)]
  | .inc d => [encOneReg 0b1001010 d 0b0011]
  | .dec d => [encOneReg 0b1001010 d 0b1010]
  | .tst d => [encRR5 0b001000 d d]
  | .clr d => [encRR5 0b001001 d d]
  | .ser d => [encRI8 0b1110 d 0xFF]
  | .mul d r => [encRR5 0b100111 d r]
  | .muls d r => [0b00000010#8 ++ bitsHigh d ++ bitsHigh r]
  | .mulsu d r => [encMUL3 0 0 d r]
  | .fmul d r => [encMUL3 0 1 d r]
  | .fmuls d r => [encMUL3 1 0 d r]
  | .fmulsu d r => [encMUL3 1 1 d r]
  | .des K => [0b10010100#8 ++ K ++ 0b1011#4]
  | .rjmp k => [encRJ 0b1100 k]
  | .ijmp => [0x9409]
  | .eijmp => [0x9419]
  | .jmp k => [encJC32 0b110 k, k.extractLsb' 0 16]
  | .rcall k => [encRJ 0b1101 k]
  | .icall => [0x9509]
  | .eicall => [0x9519]
  | .call k => [encJC32 0b111 k, k.extractLsb' 0 16]
  | .ret => [0x9508]
  | .reti => [0x9518]
  | .cpse d r => [encRR5 0b000100 d r]
  | .cp d r => [encRR5 0b000101 d r]
  | .cpc d r => [encRR5 0b000001 d r]
  | .cpi d K => [encRI8 0b0011 d K]
  | .sbrc r b => [encRB 0b1111110 r b]
  | .sbrs r b => [encRB 0b1111111 r b]
  | .sbic A b => [encIOB 0b10011001 A b]
  | .sbis A b => [encIOB 0b10011011 A b]
  | .brbs s k => [encBR 0b111100 s k]
  | .brbc s k => [encBR 0b111101 s k]
  | .breq k => [encBR 0b111100 1 k]
  | .brne k => [encBR 0b111101 1 k]
  | .brcs k => [encBR 0b111100 0 k]
  | .brcc k => [encBR 0b111101 0 k]
  | .brsh k => [encBR 0b111101 0 k]
  | .brlo k => [encBR 0b111100 0 k]
  | .brmi k => [encBR 0b111100 2 k]
  | .brpl k => [encBR 0b111101 2 k]
  | .brge k => [encBR 0b111101 4 k]
  | .brlt k => [encBR 0b111100 4 k]
  | .brhs k => [encBR 0b111100 5 k]
  | .brhc k => [encBR 0b111101 5 k]
  | .brts k => [encBR 0b111100 6 k]
  | .brtc k => [encBR 0b111101 6 k]
  | .brvs k => [encBR 0b111100 3 k]
  | .brvc k => [encBR 0b111101 3 k]
  | .brie k => [encBR 0b111100 7 k]
  | .brid k => [encBR 0b111101 7 k]
  | .mov d r => [encRR5 0b001011 d r]
  | .movw d r => [0b00000001#8 ++ bitsEven d ++ bitsEven r]
  | .ldi d K => [encRI8 0b1110 d K]
  | .lds d k => [encOneReg 0b1001000 d 0b0000, k]
  | .lds16 d k => [encDS16 0b10100 d k]
  | .ldX d => [encOneReg 0b1001000 d 0b1100]
  | .ldXInc d => [encOneReg 0b1001000 d 0b1101]
  | .ldXDec d => [encOneReg 0b1001000 d 0b1110]
  | .ldY d => [encDISP 0 1 d 0]
  | .ldYInc d => [encOneReg 0b1001000 d 0b1001]
  | .ldYDec d => [encOneReg 0b1001000 d 0b1010]
  | .lddY d q => [encDISP 0 1 d q]
  | .ldZ d => [encDISP 0 0 d 0]
  | .ldZInc d => [encOneReg 0b1001000 d 0b0001]
  | .ldZDec d => [encOneReg 0b1001000 d 0b0010]
  | .lddZ d q => [encDISP 0 0 d q]
  | .sts k r => [encOneReg 0b1001001 r 0b0000, k]
  | .sts16 k r => [encDS16 0b10101 r k]
  | .stX r => [encOneReg 0b1001001 r 0b1100]
  | .stXInc r => [encOneReg 0b1001001 r 0b1101]
  | .stXDec r => [encOneReg 0b1001001 r 0b1110]
  | .stY r => [encDISP 1 1 r 0]
  | .stYInc r => [encOneReg 0b1001001 r 0b1001]
  | .stYDec r => [encOneReg 0b1001001 r 0b1010]
  | .stdY q r => [encDISP 1 1 r q]
  | .stZ r => [encDISP 1 0 r 0]
  | .stZInc r => [encOneReg 0b1001001 r 0b0001]
  | .stZDec r => [encOneReg 0b1001001 r 0b0010]
  | .stdZ q r => [encDISP 1 0 r q]
  | .lpmR0 => [0x95C8]
  | .lpm d => [encOneReg 0b1001000 d 0b0100]
  | .lpmInc d => [encOneReg 0b1001000 d 0b0101]
  | .elpmR0 => [0x95D8]
  | .elpm d => [encOneReg 0b1001000 d 0b0110]
  | .elpmInc d => [encOneReg 0b1001000 d 0b0111]
  | .spm => [0x95E8]
  | .spmInc => [0x95F8]
  | .inIo d A => [encIOA6 0b10110 d A]
  | .outIo A r => [encIOA6 0b10111 r A]
  | .push r => [encOneReg 0b1001001 r 0b1111]
  | .pop d => [encOneReg 0b1001000 d 0b1111]
  | .xch d => [encOneReg 0b1001001 d 0b0100]
  | .las d => [encOneReg 0b1001001 d 0b0101]
  | .lac d => [encOneReg 0b1001001 d 0b0110]
  | .lat d => [encOneReg 0b1001001 d 0b0111]
  | .lsl d => [encRR5 0b000011 d d]
  | .lsr d => [encOneReg 0b1001010 d 0b0110]
  | .rol d => [encRR5 0b000111 d d]
  | .ror d => [encOneReg 0b1001010 d 0b0111]
  | .asr d => [encOneReg 0b1001010 d 0b0101]
  | .swap d => [encOneReg 0b1001010 d 0b0010]
  | .sbi A b => [encIOB 0b10011010 A b]
  | .cbi A b => [encIOB 0b10011000 A b]
  | .bst d b => [encRB 0b1111101 d b]
  | .bld d b => [encRB 0b1111100 d b]
  | .bset s => [encSF 0 s]
  | .bclr s => [encSF 1 s]
  | .sec => [encSF 0 0]
  | .clc => [encSF 1 0]
  | .sen => [encSF 0 2]
  | .cln => [encSF 1 2]
  | .sez => [encSF 0 1]
  | .clz => [encSF 1 1]
  | .sei => [encSF 0 7]
  | .cli => [encSF 1 7]
  | .ses => [encSF 0 4]
  | .cls => [encSF 1 4]
  | .sev => [encSF 0 3]
  | .clv => [encSF 1 3]
  | .set => [encSF 0 6]
  | .clt => [encSF 1 6]
  | .seh => [encSF 0 5]
  | .clh => [encSF 1 5]
  | .brk => [0x9598]
  | .nop => [0x0000]
  | .sleep => [0x9588]
  | .wdr => [0x95A8]

/-- The bytes of a list of words as the program memory holds them, low byte first (R68). -/
def wordBytes : List Word → List Byte
  | [] => []
  | w :: ws => w.extractLsb' 0 8 :: w.extractLsb' 8 8 :: wordBytes ws

/-- The four bytes of the instruction whose opcode-table number is `w` (first word in bits 15:0, second in bits 31:16),
every bit from `nbits` up being 0. -/
def tableBytes (nbits w : Nat) : List Byte :=
  wordBytes [BitVec.ofNat 16 (w % 2 ^ nbits), BitVec.ofNat 16 (w % 2 ^ nbits / 2 ^ 16)]

/-- The instruction the decoder reads from an instruction word numbered as the opcode table numbers it, under the
configuration of `State.reset`; none where the decoder rejects it. -/
def decodeTableWord (nbits w : Nat) : Option Instr :=
  match decode Machine.defaultConfig (tableBytes nbits w) with
  | .ok (i, _) => some i
  | .error _ => none

end Sys2Proof
end

