-- ==== Sys2Proof/Machine/Flags.lean ====
section
/-! DEFINITION. Every result and flag computation the spec gives (spec/40_arithmetic_logic.md R141-R143, R146, R151, R158,
R161, R162; spec/41_multiply_des.md R180-R186; spec/44_bit_and_bittest.md R320-R325), as functions of bytes: a result, and
the SREG that replaces the old one. Exact sums are formed in Nat or Int and narrowed at the end. -/

namespace Sys2Proof.Machine

/-- The flags of SREG (R25). -/
inductive Flag where
  | C | Z | N | V | S | H | T | I
  deriving DecidableEq, Repr

/-- The bit of SREG a flag is (R25). -/
def Flag.bit : Flag → Nat
  | .C => 0
  | .Z => 1
  | .N => 2
  | .V => 3
  | .S => 4
  | .H => 5
  | .T => 6
  | .I => 7

/-- A byte with bit `i` replaced by `b`. -/
def putBit (x : Byte) (i : Nat) (b : Bool) : Byte :=
  if b then x ||| (1#8 <<< i) else x &&& ~~~(1#8 <<< i)

/-- SREG with one flag replaced. -/
def putFlag (sreg : Byte) (f : Flag) (b : Bool) : Byte := putBit sreg f.bit b

/-- One flag of SREG. -/
def getFlag (sreg : Byte) (f : Flag) : Bool := sreg.getLsbD f.bit

/-- Write S, V, N and Z, with S = N xor V of the new values (R26). -/
def putSVNZ (sreg : Byte) (v n z : Bool) : Byte :=
  putFlag (putFlag (putFlag (putFlag sreg .Z z) .N n) .V v) .S (n ^^ v)

/-- Write S, V, N, Z and C. -/
def putSVNZC (sreg : Byte) (v n z c : Bool) : Byte := putFlag (putSVNZ sreg v n z) .C c

/-- Write H, S, V, N, Z and C. -/
def putHSVNZC (sreg : Byte) (h v n z c : Bool) : Byte := putFlag (putSVNZC sreg v n z c) .H h

/-- The sum of `AddFlags` (R141). -/
def addResult (a b : Byte) (cin : Bool) : Byte := BitVec.ofNat 8 (a.toNat + b.toNat + cin.toNat)

/-- The SREG of `AddFlags` (R141). -/
def addSreg (sreg a b : Byte) (cin : Bool) : Byte :=
  let r := addResult a b cin
  putHSVNZC sreg
    (decide (16 ≤ a.toNat % 16 + b.toNat % 16 + cin.toNat))
    (a.msb == b.msb && r.msb != a.msb)
    r.msb
    (r == 0)
    (decide (256 ≤ a.toNat + b.toNat + cin.toNat))

/-- The difference of `SubFlags` (R142). -/
def subResult (a b : Byte) (bin : Bool) : Byte := BitVec.ofInt 8 (a.toNat - b.toNat - bin.toNat)

/-- The SREG of `SubFlags` (R142); with `keepZ` the old Z survives a zero result and is cleared by any other. -/
def subSreg (sreg a b : Byte) (bin keepZ : Bool) : Byte :=
  let r := subResult a b bin
  putHSVNZC sreg
    (decide (a.toNat % 16 < b.toNat % 16 + bin.toNat))
    (a.msb != b.msb && r.msb != a.msb)
    r.msb
    (r == 0 && (!keepZ || getFlag sreg .Z))
    (decide (a.toNat < b.toNat + bin.toNat))

/-- The SREG of `LogicFlags` (R143). -/
def logicSreg (sreg r : Byte) : Byte := putSVNZ sreg false r.msb (r == 0)

/-- The SREG of COM: `LogicFlags` and C set (R157). -/
def comSreg (sreg r : Byte) : Byte := putFlag (logicSreg sreg r) .C true

/-- The SREG of NEG, from the old register and the result (R158). -/
def negSreg (sreg a r : Byte) : Byte :=
  putHSVNZC sreg (r.getLsbD 3 || a.getLsbD 3) (r == 0x80) r.msb (r == 0) (r != 0)

/-- The SREG of INC, from the result (R161). -/
def incSreg (sreg r : Byte) : Byte := putSVNZ sreg (r == 0x80) r.msb (r == 0)

/-- The SREG of DEC, from the result (R162). -/
def decSreg (sreg r : Byte) : Byte := putSVNZ sreg (r == 0x7F) r.msb (r == 0)

/-- The SREG of CLR (R164). -/
def clrSreg (sreg : Byte) : Byte := putSVNZ sreg false false true

/-- The SREG of ADIW, from the old pair and the result (R146). -/
def adiwSreg (sreg : Byte) (a r : Word) : Byte :=
  putSVNZC sreg (!a.msb && r.msb) r.msb (r == 0) (a.msb && !r.msb)

/-- The SREG of SBIW, from the old pair and the result (R151). -/
def sbiwSreg (sreg : Byte) (a r : Word) : Byte :=
  putSVNZC sreg (a.msb && !r.msb) r.msb (r == 0) (!a.msb && r.msb)

/-- The SREG of the left shifts LSL and ROL, from the old register and the result (R321, R323). -/
def shiftLeftSreg (sreg a r : Byte) : Byte :=
  putHSVNZC sreg (a.getLsbD 3) (r.msb ^^ a.msb) r.msb (r == 0) a.msb

/-- `ShiftRightFlags` (R320), from the old register and the result. -/
def shiftRightSreg (sreg a r : Byte) : Byte :=
  putSVNZC sreg (r.msb ^^ a.getLsbD 0) r.msb (r == 0) (a.getLsbD 0)

/-- How a multiply reads an operand (R180). -/
inductive Sign where
  | unsigned | signed
  deriving DecidableEq, Repr

/-- The integer an operand stands for (R180: `u(x)` and `s(x)`). -/
def Sign.value (g : Sign) (x : Byte) : Int :=
  match g with
  | .unsigned => x.toNat
  | .signed => x.toInt

/-- The 16-bit product pattern `P16` (R180). -/
def product (gd gr : Sign) (a b : Byte) : Word := BitVec.ofInt 16 (gd.value a * gr.value b)

/-- The fractional result: the product shifted left by one (R184-R186). -/
def fractional (p : Word) : Word := p <<< 1

/-- The SREG of the multiplies, from `P16` and the value written to R1:R0 (R180). -/
def mulSreg (sreg : Byte) (p result : Word) : Byte := putFlag (putFlag sreg .Z (result == 0)) .C p.msb

end Sys2Proof.Machine
end

