-- ==== Sys2Proof/Machine/State.lean ====
section
/-! DEFINITION. The state of the machine as plain data (spec/10_state.md R20-R49), its faults and refusals
(spec/60_exceptions.md R370, R371), and the state right after reset (R48, spec/70_reset_and_hazards.md R400). -/

namespace Sys2Proof.Machine

/-- The hidden state `run` (R43). -/
inductive Run where
  /-- The machine fetches. -/
  | running
  /-- After SLEEP with SLEEP_ENABLED: it fetches nothing and checks interrupts (R362). -/
  | sleeping
  /-- After BREAK with the debugger enabled: the run has ended (R360). -/
  | stopped
  deriving DecidableEq, Repr

/-- The machine state. Every field but `events` and `draws` is the spec's (R20, R42-R45); those two are the model's
(log 41, log 42). -/
structure State where
  /-- The parameters of R6 to R11; no step changes them (log 1). -/
  cfg : Config
  /-- R0 to R31 (R21). -/
  regs : Vector Byte 32
  /-- The program counter, a word address (R30), in the 22 bits of the largest device. -/
  pc : PcWord
  /-- SREG: I T H S V N Z C in bits 7 to 0 (R25). -/
  sreg : Byte
  /-- SP (R35), in the 16 bits of the largest device. -/
  sp : BitVec 16
  /-- RAMPX (R37). -/
  rampX : Byte
  /-- RAMPY (R37). -/
  rampY : Byte
  /-- RAMPZ (R37). -/
  rampZ : Byte
  /-- RAMPD (R38). -/
  rampD : Byte
  /-- EIND (R39). -/
  eind : Byte
  /-- The SRAM bytes of the data space, by data address (R60); an unlisted byte has not been written and has no value. -/
  data : Memory
  /-- Program memory by byte address, the low byte of word a at 2 * a (R65, R67); an unlisted byte reads 0xFF (R401). -/
  prog : Memory
  /-- `irq_inhibit` (R42). -/
  irqInhibit : Bool
  /-- `run` (R43). -/
  run : Run
  /-- The SPM temporary page buffer (R44), as `SpmEffect` keeps it. -/
  spmBuffer : List (Nat × Word)
  /-- Whether any lock bit is set (R45, R360). -/
  lockBitSet : Bool
  /-- Whether the JTAGEN fuse is programmed (R45, R360). -/
  jtagenProgrammed : Bool
  /-- Whether the OCDEN fuse is programmed (R45, R360). -/
  ocdenProgrammed : Bool
  /-- SLEEP_ENABLED as it would be sampled now (R362). -/
  sleepEnabled : Bool
  /-- The numbers n for which `IrqPending(n)` holds now (R380): an input of the platform. -/
  irqPending : List Nat
  /-- What has been handed to the platform, newest first (the model's own record). -/
  events : List PlatformEvent
  /-- How many free values have been drawn (the model's own counter). -/
  draws : Nat
  deriving DecidableEq, Repr

/-- Why a step ends with no next state (R370). Every one of them stops where the manual gives no behaviour, and each is
SAFE: a hardware that goes on does more than the model, never something the model rules out. -/
inductive Fault where
  /-- Decoding: the first word matches no opcode line (R373). Safe. -/
  | reservedOpcode (w : Word)
  /-- Decoding: the core or the device lacks the form (R372). Safe. -/
  | unavailableInstruction (f : Form)
  /-- Decoding on AVRrc: a register field below 16 (R374). Safe. -/
  | registerOutOfRange (r : Reg)
  /-- Fetching, and the look-ahead of a skip: a word address above FLASHEND (R375). Safe. -/
  | fetchOutOfRange (a : Nat)
  /-- An operand combination the manual calls undefined; LAS, LAC, LAT outside internal SRAM (R376). Safe. -/
  | undefinedCombination
  /-- A data address that DATA_MAP gives to nothing, or a program byte above FLASHEND (R377). Safe. -/
  | unmappedAddress (a : Nat)
  /-- A store to a flash mapping (R377). Safe. -/
  | writeToFlashMapping (a : Nat)
  /-- A read of an SRAM byte that nothing has written: it has no value (R48, D8, log 6). Safe. -/
  | unwrittenMemory (a : Nat)
  deriving DecidableEq, Repr

/-- Why the model gives a step no meaning (R371). Every one is SAFE: nothing is claimed of what the hardware does. -/
inductive Refusal where
  /-- An instruction whose arm has no meaning yet. Raised by no arm of this model. Safe. -/
  | notModelled (mnemonic : String)
  /-- DES where the configuration supplies no `DesRound` (R187, R371). Safe. -/
  | desNotModelled
  /-- SPM where the configuration supplies no `SpmEffect` (R288, R371). Safe. -/
  | spmNotModelled
  /-- A step of a Stopped machine: the run has ended (R380 "no step", R360). Safe. -/
  | runEnded
  deriving DecidableEq, Repr

/-- The machine right after reset under a given configuration (R48): pc = RESET_PC, SP = RESET_SP, SREG, RAMPx and EIND
0, irq_inhibit clear, Running; the general registers 0 (log 3); nothing in memory; the platform at its defaults. -/
def State.resetWith (c : Config) : State where
  cfg := c
  regs := Vector.replicate 32 0
  pc := c.resetPc
  sreg := 0
  sp := c.resetSp
  rampX := 0
  rampY := 0
  rampZ := 0
  rampD := 0
  eind := 0
  data := []
  prog := []
  irqInhibit := false
  run := .running
  spmBuffer := []
  lockBitSet := false
  jtagenProgrammed := false
  ocdenProgrammed := false
  sleepEnabled := false
  irqPending := []
  events := []
  draws := 0

/-- The machine right after reset, under the configuration of Machine/Platform.lean (log 2). -/
def State.reset : State := State.resetWith defaultConfig

end Sys2Proof.Machine
end

