-- ==== Sys2Proof/Machine/Ops.lean ====
section
/-! DEFINITION. The named operations over registers, memory, I/O, the stack and the program counter (spec/20_memory.md
R60-R79, spec/10_state.md R30-R42), taking an interrupt and returning from one (spec/60_exceptions.md R381, R382), and
what the CPU hands to the platform. Every meaning is written over these. An operation that can stop answers
`Except Fault`; a fault leaves no state (R370). -/

namespace Sys2Proof.Machine

/-- What an instruction's meaning answers. -/
abbrev Result := Host.Outcome State Fault Refusal

/-- An operation's answer as an instruction's. -/
def finish (x : Except Fault State) : Result :=
  match x with
  | .ok s => .next s
  | .error e => .fault e

/-! ### Sparse memory -/

/-- The byte an address lists, if it lists one. -/
def Memory.lookup (m : Memory) (a : Nat) : Option Byte :=
  match m with
  | [] => none
  | (k, v) :: t => if k = a then some v else Memory.lookup t a

/-- List an address, keeping the addresses strictly rising. -/
def Memory.insert (m : Memory) (a : Nat) (v : Byte) : Memory :=
  match m with
  | [] => [(a, v)]
  | (k, w) :: t =>
    if a < k then (a, v) :: (k, w) :: t
    else if a = k then (a, v) :: t
    else (k, w) :: Memory.insert t a v

/-- Unlist an address. -/
def Memory.erase (m : Memory) (a : Nat) : Memory :=
  match m with
  | [] => []
  | (k, w) :: t => if k = a then t else (k, w) :: Memory.erase t a

/-- Read a byte; `blank` is what an unlisted address reads as, `none` where it has no value. -/
def Memory.read (blank : Option Byte) (m : Memory) (a : Nat) : Option Byte :=
  match Memory.lookup m a with
  | some v => some v
  | none => blank

/-- Write a byte; writing what an unlisted address reads as removes the entry. -/
def Memory.write (blank : Option Byte) (m : Memory) (a : Nat) (v : Byte) : Memory :=
  if blank = some v then Memory.erase m a else Memory.insert m a v

/-- The canonical form: addresses strictly rising, no entry equal to what an unlisted address reads as. -/
def Memory.wf (blank : Option Byte) (m : Memory) : Bool :=
  decide (m.Pairwise fun x y => x.1 < y.1) && m.all fun c => blank != some c.2

/-- What an unlisted byte of the data space reads as: nothing (R48, D8, log 6). -/
def dataBlank : Option Byte := none

/-- What an unlisted byte of program memory reads as: the erased value (R401, log 7). -/
def progBlank : Option Byte := some 0xFF

/-! ### Registers -/

/-- Read a general register (R21). -/
def State.reg (s : State) (r : Reg) : Byte := s.regs.get r

/-- Write a general register (R21). -/
def State.setReg (s : State) (r : Reg) (v : Byte) : State := { s with regs := s.regs.set r.val v r.isLt }

/-- Read the pair whose low register is `lo`, the higher-numbered register in the high byte (R22). -/
def State.pair (s : State) (lo : Reg) : Word := s.reg (lo + 1) ++ s.reg lo

/-- Write the pair whose low register is `lo` (R22). -/
def State.setPair (s : State) (lo : Reg) (v : Word) : State :=
  (s.setReg lo (v.extractLsb' 0 8)).setReg (lo + 1) (v.extractLsb' 8 8)

/-- Read a flag (R25). -/
def State.flag (s : State) (f : Flag) : Bool := getFlag s.sreg f

/-- Replace SREG. -/
def State.setSreg (s : State) (v : Byte) : State := { s with sreg := v }

/-- Replace the pc. -/
def State.setPc (s : State) (v : PcWord) : State := { s with pc := v }

/-- Replace SP. -/
def State.setSp (s : State) (v : BitVec 16) : State := { s with sp := v }

/-- Replace `irq_inhibit`. -/
def State.setInhibit (s : State) (b : Bool) : State := { s with irqInhibit := b }

/-- Replace `run`. -/
def State.setRun (s : State) (r : Run) : State := { s with run := r }

/-- Replace the SRAM bytes. -/
def State.setData (s : State) (m : Memory) : State := { s with data := m }

/-- Replace the program memory. -/
def State.setProg (s : State) (m : Memory) : State := { s with prog := m }

/-- Replace the list of requesting sources; the platform may do it between any two steps (R380). -/
def State.setIrqPending (s : State) (l : List Nat) : State := { s with irqPending := l }

/-- Record what is handed to the platform. -/
def State.record (s : State) (e : PlatformEvent) : State := { s with events := e :: s.events }

/-- Count one drawn free value. -/
def State.countDraw (s : State) : State := { s with draws := s.draws + 1 }

/-- Write all of SREG through its I/O location; raising I delays interrupts by one instruction (R71, R42). -/
def State.writeSreg (s : State) (v : Byte) : State :=
  { s with sreg := v, irqInhibit := s.irqInhibit || (getFlag v .I && !getFlag s.sreg .I) }

/-- Whether a pointer's RAMP register exists (R10). -/
def hasRamp (c : Config) (p : Ptr) : Bool :=
  match p with
  | .X => c.hasRampX
  | .Y => c.hasRampY
  | .Z => c.hasRampZ

/-- A pointer's RAMP register. -/
def State.ramp (s : State) (p : Ptr) : Byte :=
  match p with
  | .X => s.rampX
  | .Y => s.rampY
  | .Z => s.rampZ

/-- Replace a pointer's RAMP register. -/
def State.setRamp (s : State) (p : Ptr) (v : Byte) : State :=
  match p with
  | .X => { s with rampX := v }
  | .Y => { s with rampY := v }
  | .Z => { s with rampZ := v }

/-- Replace RAMPD. -/
def State.setRampD (s : State) (v : Byte) : State := { s with rampD := v }

/-- Replace EIND. -/
def State.setEind (s : State) (v : Byte) : State := { s with eind := v }

/-- RAMPZ:Z, with RAMPZ taken as 0 when it does not exist (R40, R285, R288). -/
def State.rampZZ (s : State) : Addr24 := (if s.cfg.hasRampZ then s.rampZ else 0#8) ++ s.pair 30

/-! ### Program counter -/

/-- A value loaded into the PC from a wider source: truncated to `PC_BITS` (R33). -/
def pcTrunc (c : Config) (v : PcWord) : PcWord := BitVec.ofNat 22 (v.toNat % 2 ^ c.pcBits.width)

/-- The width PC sums wrap at: `PC_WRAP_BITS`, by default `PC_BITS` (R32). -/
def wrapWidth (c : Config) : Nat :=
  match c.pcWrapBits with
  | none => c.pcBits.width
  | some n => min n c.pcBits.width

/-- `pc + offset` (R32). -/
def pcAdd (c : Config) (pc : PcWord) (offset : Int) : PcWord :=
  BitVec.ofInt 22 (((pc.toNat : Int) + offset) % ((2 ^ wrapWidth c : Nat) : Int))

/-- Move the pc forward by a number of words. -/
def State.advance (s : State) (n : Nat) : State := s.setPc (pcAdd s.cfg s.pc n)

/-- `Branch(cond, k)` (R192): to `pc + k + 1` or to `pc + 1`. -/
def State.branch (s : State) (cond : Bool) (k : Int) : State :=
  s.setPc (pcAdd s.cfg s.pc (if cond then k + 1 else 1))

/-! ### Program memory -/

/-- A byte of program memory by byte address, whatever FLASHEND is. -/
def State.progCell (s : State) (b : Nat) : Byte := (Memory.read progBlank s.prog b).getD 0xFF

/-- The word of program memory at a word address, the low byte at the even byte address (R65, R68). -/
def State.progWord (s : State) (a : Nat) : Word := s.progCell (2 * a + 1) ++ s.progCell (2 * a)

/-- `ProgByte(b)` (R67): bit 0 of the byte address selects the byte of the word. -/
def progByte (s : State) (b : Nat) : Except Fault Byte :=
  if s.cfg.flashEnd < b / 2 then .error (.unmappedAddress b)
  else
    let w := s.progWord (b / 2)
    .ok (if b % 2 = 0 then w.extractLsb' 0 8 else w.extractLsb' 8 8)

/-- Replace one word of program memory. -/
def Memory.writeWord (m : Memory) (a : Nat) (w : Word) : Memory :=
  Memory.write progBlank (Memory.write progBlank m (2 * a) (w.extractLsb' 0 8)) (2 * a + 1) (w.extractLsb' 8 8)

/-- The words a skip passes over: two where the bits of the first match a two-word pattern (R103, R191), one where they
do not and on AVRrc always (D17, log 29). -/
def skipLength (c : Config) (w : Word) : Nat := if c.core != .AVRrc && isTwoWord w then 2 else 1

/-- `Skip(cond)` (R191): the word after the skip instruction is looked at only when the skip is taken. -/
def skip (cond : Bool) (s : State) : Except Fault State :=
  if s.pc.toNat + 1 ≤ s.cfg.flashEnd then
    .ok (s.advance (if cond then 1 + skipLength s.cfg (s.progWord (s.pc.toNat + 1)) else 1))
  else if cond then .error (.fetchOutOfRange (s.pc.toNat + 1))
  else .ok (s.advance 1)

/-! ### Devices and the I/O space -/

/-- `DevRead` (R72): the device answers a free value. -/
def devRead (loc : DevLoc) (s : State) : Byte × State :=
  let v := Config.freeByte s.draws
  (v, (s.record (.devRead loc v)).countDraw)

/-- `DevWrite` (R72): recorded and otherwise ignored. -/
def devWrite (loc : DevLoc) (v : Byte) (s : State) : State := s.record (.devWrite loc v)

/-- The CPU register an I/O location is, or a device (R70): the order of the rule's case split. -/
inductive IoTarget where
  | sreg | spl | sph
  | ramp (p : Ptr)
  | rampD | eind
  | device
  deriving DecidableEq, Repr

/-- What stands at an I/O location (R70). -/
def ioTarget (c : Config) (A : BitVec 6) : IoTarget :=
  if A = c.ioSreg then .sreg
  else if A = c.ioSpl then .spl
  else if A = c.ioSph ∧ c.spBits = .bits16 then .sph
  else if A = c.ioRampX ∧ c.hasRampX then .ramp .X
  else if A = c.ioRampY ∧ c.hasRampY then .ramp .Y
  else if A = c.ioRampZ ∧ c.hasRampZ then .ramp .Z
  else if A = c.ioRampD ∧ c.hasRampD then .rampD
  else if A = c.ioEind ∧ c.hasEind then .eind
  else .device

/-- `IoRead(A)` (R70). -/
def ioRead (A : BitVec 6) (s : State) : Byte × State :=
  match ioTarget s.cfg A with
  | .sreg => (s.sreg, s)
  | .spl => (s.sp.extractLsb' 0 8, s)
  | .sph => (s.sp.extractLsb' 8 8, s)
  | .ramp p => (s.ramp p, s)
  | .rampD => (s.rampD, s)
  | .eind => (s.eind, s)
  | .device => devRead (.io A) s

/-- `IoWrite(A, v)` (R71). -/
def ioWrite (A : BitVec 6) (v : Byte) (s : State) : State :=
  match ioTarget s.cfg A with
  | .sreg => s.writeSreg v
  | .spl => s.setSp (s.sp.extractLsb' 8 8 ++ v)
  | .sph => s.setSp (v ++ s.sp.extractLsb' 0 8)
  | .ramp p => s.setRamp p v
  | .rampD => s.setRampD v
  | .eind => s.setEind v
  | .device => devWrite (.io A) v s

/-- SBI and CBI on one I/O location (R73, R327, R328): the byte is read, one bit replaced, and the byte written back; on
a device location the platform may supply a single-bit operation instead. -/
def ioPutBit (A : BitVec 6) (b : Fin 8) (set : Bool) (s : State) : State :=
  if s.cfg.devBitOps && ioTarget s.cfg A == .device then
    s.record (if set then .devSetBit (.io A) b else .devClearBit (.io A) b)
  else
    let (v, s1) := ioRead A s
    ioWrite A (putBit v b.val set) s1

/-! ### The data space -/

/-- What a data address is (R61). -/
inductive DataRef where
  | reg (i : Reg)
  | io (A : BitVec 6)
  | extIo (a : Nat)
  | sram (a : Nat)
  | extSram (a : Nat)
  | flash (b : Nat)
  | unmapped
  deriving DecidableEq, Repr

/-- `DATA_MAP(addr)` (R61): the first region that holds the address. -/
def classify (c : Config) (a : Nat) : DataRef :=
  match c.dataMap.find? fun g => decide (g.first ≤ a ∧ a ≤ g.last) with
  | none => .unmapped
  | some g =>
    let n := g.base + (a - g.first)
    match g.kind with
    | .regFile => if h : n < 32 then .reg ⟨n, h⟩ else .unmapped
    | .io => if n < 64 then .io (BitVec.ofNat 6 n) else .unmapped
    | .extIo => .extIo a
    | .sram => .sram a
    | .extSram => .extSram a
    | .flash => .flash n

/-- A written SRAM byte, or the fault of one that nothing has written (R48, D8). -/
def sramRead (s : State) (a : Nat) : Except Fault Byte :=
  match Memory.read dataBlank s.data a with
  | some v => .ok v
  | none => .error (.unwrittenMemory a)

/-- Write an SRAM byte. -/
def sramWrite (s : State) (a : Nat) (v : Byte) : State := s.setData (Memory.write dataBlank s.data a v)

/-- `MemRead(addr, 1)` (R62). A device read also moves the oracle on, hence the state. -/
def memRead (a : Nat) (s : State) : Except Fault (Byte × State) :=
  match classify s.cfg a with
  | .reg i => .ok (s.reg i, s)
  | .io A => .ok (ioRead A s)
  | .extIo a => .ok (devRead (.ext a) s)
  | .sram a => (sramRead s a).map fun v => (v, s)
  | .extSram a => (sramRead s a).map fun v => (v, s)
  | .flash b => (progByte s b).map fun v => (v, s)
  | .unmapped => .error (.unmappedAddress a)

/-- `MemWrite(addr, 1, v)` (R63). -/
def memWrite (a : Nat) (v : Byte) (s : State) : Except Fault State :=
  match classify s.cfg a with
  | .reg i => .ok (s.setReg i v)
  | .io A => .ok (ioWrite A v s)
  | .extIo a => .ok (devWrite (.ext a) v s)
  | .sram a => .ok (sramWrite s a v)
  | .extSram a => .ok (sramWrite s a v)
  | .flash _ => .error (.writeToFlashMapping a)
  | .unmapped => .error (.unmappedAddress a)

/-! ### The stack -/

/-- An SP value narrowed to `SP_BITS` (R35, D21). -/
def spTrunc (c : Config) (v : BitVec 16) : BitVec 16 := BitVec.ofNat 16 (v.toNat % 2 ^ c.spBits.width)

/-- SP - 1 modulo 2^SP_BITS. -/
def spDec (c : Config) (sp : BitVec 16) : BitVec 16 := spTrunc c (sp - 1)

/-- SP + 1 modulo 2^SP_BITS. -/
def spInc (c : Config) (sp : BitVec 16) : BitVec 16 := spTrunc c (sp + 1)

/-- `Push8(v)` (R76): the byte at SP, then SP one lower; the SP update wins over a store that lands on SP (R64). -/
def push8 (v : Byte) (s : State) : Except Fault State :=
  match memWrite s.sp.toNat v s with
  | .ok s1 => .ok (s1.setSp (spDec s.cfg s.sp))
  | .error e => .error e

/-- `Pop8()` (R77): SP one higher, then the byte at SP. -/
def pop8 (s : State) : Except Fault (Byte × State) :=
  let s1 := s.setSp (spInc s.cfg s.sp)
  memRead s1.sp.toNat s1

/-- `PushPC(v)` (R78): low byte first, at the highest address; three bytes on a 22-bit PC (D3). -/
def pushPc (v : PcWord) (s : State) : Except Fault State :=
  match push8 (v.extractLsb' 0 8) s with
  | .error e => .error e
  | .ok s1 =>
    match push8 (v.extractLsb' 8 8) s1 with
    | .error e => .error e
    | .ok s2 =>
      match s.cfg.pcBits with
      | .bits16 => .ok s2
      | .bits22 => push8 ((v.extractLsb' 16 6).setWidth 8) s2

/-- The two low bytes of a return address, the high one first (R79). -/
def popPcLow (hi : BitVec 6) (s : State) : Except Fault (PcWord × State) :=
  match pop8 s with
  | .error e => .error e
  | .ok (mid, s1) =>
    match pop8 s1 with
    | .error e => .error e
    | .ok (lo, s2) => .ok (hi ++ mid ++ lo, s2)

/-- `PopPC()` (R79): the inverse of `PushPC`; the bits above PC(21:16) are dropped. -/
def popPc (s : State) : Except Fault (PcWord × State) :=
  match s.cfg.pcBits with
  | .bits16 => popPcLow 0 s
  | .bits22 =>
    match pop8 s with
    | .error e => .error e
    | .ok (hi, s1) => popPcLow (hi.extractLsb' 0 6) s1

/-- A call (R201): the return address is pushed, then the pc is the target. -/
def call (ret target : PcWord) (s : State) : Except Fault State :=
  match pushPc ret s with
  | .ok s1 => .ok (s1.setPc target)
  | .error e => .error e

/-- RET (R202): the pc is popped. -/
def return_ (s : State) : Except Fault State :=
  match popPc s with
  | .ok (v, s1) => .ok (s1.setPc v)
  | .error e => .error e

/-! ### Interrupts -/

/-- `VECTOR(n)` (R381), truncated to `PC_BITS` (R33). -/
def vector (c : Config) (n : Nat) : PcWord :=
  pcTrunc c <|
    match c.vectorTable.find? fun e => e.1 == n with
    | some e => e.2
    | none => BitVec.ofNat 22 (c.vectorBase + n * c.vectorStride)

/-- The sources n in 1 .. NUM_VECTORS - 1 that are requesting (R380). -/
def pendingSources (s : State) : List Nat :=
  s.irqPending.filter fun n => decide (1 ≤ n ∧ n < s.cfg.numVectors)

/-- `IrqSelect` of a nonempty list (R383): the lowest number, or a free choice among them. -/
def selectIrq (s : State) (first : Nat) (rest : List Nat) : Nat :=
  match s.cfg.irqSelect with
  | .lowest => rest.foldl min first
  | .free => (first :: rest).getD (Config.irqPick s.draws % (rest.length + 1)) first

/-- The source whose interrupt the check at the start of a step takes (R380): I set, not inhibited, one pending. -/
def interruptTaken (s : State) : Option Nat :=
  if s.flag .I && !s.irqInhibit then
    match pendingSources s with
    | [] => none
    | n :: rest => some (selectIrq s n rest)
  else none

/-- `IrqAck(n)` (R381): recorded; the request falls where the platform clears it. -/
def irqAck (n : Nat) (s : State) : State :=
  (if s.cfg.ackClears.contains n then s.setIrqPending (s.irqPending.filter (· != n)) else s).record (.irqAck n)

/-- `InterruptEntry(n)` (R381): the pc of the next instruction is pushed, I is cleared (not on AVRxm), the pc goes to
`VECTOR(n)`, a sleeping machine runs, and the platform is told. -/
def interruptEntry (n : Nat) (s : State) : Except Fault State :=
  match pushPc s.pc s with
  | .error e => .error e
  | .ok s1 =>
    let s2 := if s.cfg.core = .AVRxm then s1 else s1.setSreg (putFlag s1.sreg .I false)
    .ok ((irqAck n (((s2.setPc (vector s.cfg n)).setInhibit false).setRun .running)).countDraw)

/-- The return from an interrupt (R203, R382): the pc is popped, I is set (not on AVRxm, where the platform is told
instead), and one more instruction runs before the next interrupt. -/
def interruptReturn (s : State) : Except Fault State :=
  match popPc s with
  | .error e => .error e
  | .ok (v, s1) =>
    let s2 := if s.cfg.core = .AVRxm then s1.record .irqReturn else s1.setSreg (putFlag s1.sreg .I true)
    .ok ((s2.setPc v).setInhibit true)

/-! ### Platform functions -/

/-- `OCD_ENABLED` (R45, R360): no lock bit set, and both fuses programmed. -/
def ocdEnabled (s : State) : Bool := !s.lockBitSet && s.jtagenProgrammed && s.ocdenProgrammed

/-- Store words of program memory; a word above FLASHEND has nowhere to go. -/
def storeWords (flashEnd : Nat) (m : Memory) (words : List (Nat × Word)) : Memory :=
  words.foldl (fun m e => if e.1 ≤ flashEnd then Memory.writeWord m e.1 e.2 else m) m

/-- The platform state that `SpmEffect` is given (R288, log 19). -/
def platformState (s : State) : PlatformState where
  cfg := s.cfg
  pc := s.pc
  prog := s.prog
  buffer := s.spmBuffer
  lockBitSet := s.lockBitSet
  jtagenProgrammed := s.jtagenProgrammed
  ocdenProgrammed := s.ocdenProgrammed
  sleepEnabled := s.sleepEnabled
  irqPending := s.irqPending
  events := s.events
  draws := s.draws

/-- `SpmEffect(RAMPZ:Z, R1:R0, platform)` (R288): free in what it does to program memory, the page buffer and the lock
bits; it changes no CPU state. DESIGN CHOICE (log 44): R83 and R405 leave to the platform when new contents become
visible to fetch and LPM; here they are visible from the next step on, and no later step changes them. -/
def spmEffect (s : State) : State :=
  let addr := s.rampZZ
  let data := s.pair 0
  let outcome := Config.spmEffect addr data (platformState s)
  { s with
    prog := storeWords s.cfg.flashEnd s.prog outcome.words
    spmBuffer := outcome.buffer
    lockBitSet := outcome.lockBitSet
    events := .spm addr data :: s.events
    draws := s.draws + 1 }

/-- R0 to R15 as one value, R0 in bits 7:0 (R187). -/
def desBlock (s : State) : BitVec 128 :=
  s.reg 15 ++ s.reg 14 ++ s.reg 13 ++ s.reg 12 ++ s.reg 11 ++ s.reg 10 ++ s.reg 9 ++ s.reg 8 ++
  s.reg 7 ++ s.reg 6 ++ s.reg 5 ++ s.reg 4 ++ s.reg 3 ++ s.reg 2 ++ s.reg 1 ++ s.reg 0

/-- Write R0 to R15 from one value, R0 from bits 7:0 (R187). -/
@[irreducible] def setDesBlock (s : State) (v : BitVec 128) : State :=
  { s with regs := Vector.ofFn fun i : Reg => if i.val < 16 then v.extractLsb' (8 * i.val) 8 else s.reg i }

/-- A reset event of the platform between two steps (R400): the CPU state is that of R48, SRAM is unwritten and program
memory stays. DESIGN CHOICE (log 46): R400 says of the rest 'device state per platform'; here all of it stays. -/
def State.resetEvent (s : State) : State :=
  { State.resetWith s.cfg with
    prog := s.prog
    spmBuffer := s.spmBuffer
    lockBitSet := s.lockBitSet
    jtagenProgrammed := s.jtagenProgrammed
    ocdenProgrammed := s.ocdenProgrammed
    sleepEnabled := s.sleepEnabled
    irqPending := s.irqPending
    events := s.events
    draws := s.draws }

/-- The platform changes SLEEP_ENABLED, between two steps (R362). -/
def State.setSleepEnabled (s : State) (b : Bool) : State := { s with sleepEnabled := b }

end Sys2Proof.Machine
end

