-- ==== Sys2Proof/Machine/Operands.lean ====
section
/-! DEFINITION. Every operand form that names a place in the data space or program memory: the pointers with their
three modes and their updates (spec/20_memory.md R85, spec/43_data_transfer.md R256), direct addresses (R254, R255, R112),
and the loads and stores through each, with the operand combinations the manual calls undefined (R257). -/

namespace Sys2Proof.Machine

/-- The low register of a pointer (R22). -/
def ptrLow (p : Ptr) : Reg :=
  match p with
  | .X => 26
  | .Y => 28
  | .Z => 30

/-- The high register of a pointer (R22). -/
def ptrHigh (p : Ptr) : Reg :=
  match p with
  | .X => 27
  | .Y => 29
  | .Z => 31

/-- The pointer modes (R85, R256): 8, 16 or 24 bits wide. -/
inductive PtrMode where
  | small | normal | wide
  deriving DecidableEq, Repr

/-- `PtrMode(P)` (R256), with the override for Z of spec/93 row 24. -/
def ptrMode (c : Config) (p : Ptr) : PtrMode :=
  if c.dataClass = .small then .small
  else if hasRamp c p && !(p == .Z && c.zPointerNormal) then .wide
  else .normal

/-- A 24-bit sum narrowed to the width W(P) of the mode (R256). -/
def ptrClip (m : PtrMode) (v : Addr24) : Addr24 :=
  match m with
  | .small => (v.extractLsb' 0 8).setWidth 24
  | .normal => (v.extractLsb' 0 16).setWidth 24
  | .wide => v

/-- `PtrGet(P)` (R256), zero-extended. -/
def ptrGet (p : Ptr) (s : State) : Addr24 :=
  match ptrMode s.cfg p with
  | .small => (s.reg (ptrLow p)).setWidth 24
  | .normal => (s.reg (ptrHigh p) ++ s.reg (ptrLow p)).setWidth 24
  | .wide => s.ramp p ++ s.reg (ptrHigh p) ++ s.reg (ptrLow p)

/-- `PtrSet(P, v)` (R256). -/
def ptrSet (p : Ptr) (v : Addr24) (s : State) : State :=
  let s1 := s.setReg (ptrLow p) (v.extractLsb' 0 8)
  match ptrMode s.cfg p with
  | .small => s1
  | .normal => s1.setReg (ptrHigh p) (v.extractLsb' 8 8)
  | .wide => (s1.setReg (ptrHigh p) (v.extractLsb' 8 8)).setRamp p (v.extractLsb' 16 8)

/-- A pointer value moved by `n`, modulo 2^W(P) (R256, D27). -/
def ptrOffset (c : Config) (p : Ptr) (a n : Addr24) : Addr24 := ptrClip (ptrMode c p) (a + n)

/-- `PtrAdd(P, n)` (R256). -/
def ptrAdd (p : Ptr) (n : Addr24) (s : State) : Addr24 := ptrOffset s.cfg p (ptrGet p s) n

/-- Whether a register is half of a pointer: the combinations R257 calls undefined in the auto-modifying forms. -/
def isPtrHalf (p : Ptr) (r : Reg) : Bool := r == ptrLow p || r == ptrHigh p

/-- The data address of the 32-bit LDS and STS (R254): RAMPD:k, or k where there is no RAMPD. -/
def directAddr (k : BitVec 16) (s : State) : Addr24 := (if s.cfg.hasRampD then s.rampD else 0#8) ++ k

/-- `Addr16(k)` of the 16-bit LDS and STS (R112): INST[8] is k(4), INST[9] k(5), INST[10] k(6). -/
def addr16 (c : Config) (k : BitVec 7) : Byte :=
  let k4 := k.extractLsb' 4 1
  (if c.lds16Alt then k4 ++ ~~~k4 else ~~~k4 ++ k4) ++ k.extractLsb' 6 1 ++ k.extractLsb' 5 1 ++ k.extractLsb' 0 4

/-- Load a byte of the data space into a register. -/
def loadAt (d : Reg) (a : Addr24) (s : State) : Except Fault State :=
  match memRead a.toNat s with
  | .ok (v, s1) => .ok (s1.setReg d v)
  | .error e => .error e

/-- LD through an unchanged pointer (R258). -/
def loadPtr (p : Ptr) (d : Reg) (s : State) : Except Fault State := loadAt d (ptrGet p s) s

/-- LDD: a displacement above a pointer that stays unchanged (R264). -/
def loadDisp (p : Ptr) (d : Reg) (q : BitVec 6) (s : State) : Except Fault State :=
  loadAt d (ptrAdd p (q.setWidth 24) s) s

/-- LD with post-increment (R259): the read is at the old pointer, the update after it. -/
def loadPostInc (p : Ptr) (d : Reg) (s : State) : Except Fault State :=
  if isPtrHalf p d then .error .undefinedCombination
  else
    let a := ptrGet p s
    match loadAt d a s with
    | .ok s1 => .ok (ptrSet p (ptrOffset s.cfg p a 1) s1)
    | .error e => .error e

/-- LD with pre-decrement (R260): the update first, the read at the new pointer. -/
def loadPreDec (p : Ptr) (d : Reg) (s : State) : Except Fault State :=
  if isPtrHalf p d then .error .undefinedCombination
  else
    let a := ptrAdd p (-1) s
    loadAt d a (ptrSet p a s)

/-- ST through an unchanged pointer (R271). -/
def storePtr (p : Ptr) (r : Reg) (s : State) : Except Fault State :=
  memWrite (ptrGet p s).toNat (s.reg r) s

/-- STD: a displacement above a pointer that stays unchanged (R277). -/
def storeDisp (p : Ptr) (q : BitVec 6) (r : Reg) (s : State) : Except Fault State :=
  memWrite (ptrAdd p (q.setWidth 24) s).toNat (s.reg r) s

/-- ST with post-increment (R272): the store first, then the pointer, which wins where they meet (R64). -/
def storePostInc (p : Ptr) (r : Reg) (s : State) : Except Fault State :=
  if isPtrHalf p r then .error .undefinedCombination
  else
    let a := ptrGet p s
    match memWrite a.toNat (s.reg r) s with
    | .ok s1 => .ok (ptrSet p (ptrOffset s.cfg p a 1) s1)
    | .error e => .error e

/-- ST with pre-decrement (R273): the pointer first, then the store, which wins where they meet (R64). The value is the
register's of before the instruction. -/
def storePreDec (p : Ptr) (r : Reg) (s : State) : Except Fault State :=
  if isPtrHalf p r then .error .undefinedCombination
  else
    let a := ptrAdd p (-1) s
    memWrite a.toNat (s.reg r) (ptrSet p a s)

/-- Load a byte of program memory into a register (R282-R287). -/
def loadProg (d : Reg) (b : Nat) (s : State) : Except Fault State :=
  match progByte s b with
  | .ok v => .ok (s.setReg d v)
  | .error e => .error e

/-- Replace RAMPZ:Z, the RAMPZ half only where the register exists (R287). -/
def setRampZZ (v : Addr24) (s : State) : State :=
  let s1 := s.setPair 30 (v.extractLsb' 0 16)
  if s.cfg.hasRampZ then s1.setRamp .Z (v.extractLsb' 16 8) else s1

/-- `Rmw(d, f)` (R299): the byte at Z is read, `f` of the register and the byte is written back, and the register gets
the byte. With `sramOnly` any address that is not internal SRAM is an undefined combination (D27). -/
def rmw (sramOnly : Bool) (f : Byte → Byte → Byte) (d : Reg) (s : State) : Except Fault State :=
  let a := (ptrGet .Z s).toNat
  if sramOnly && classify s.cfg a != .sram a then .error .undefinedCombination
  else
    match memRead a s with
    | .error e => .error e
    | .ok (m, s1) =>
      match memWrite a (f (s.reg d) m) s1 with
      | .error e => .error e
      | .ok s2 => .ok (s2.setReg d m)

end Sys2Proof.Machine
end

