-- ==== Sys2Proof/Machine/Arith.lean ====
section
/-! DEFINITION. The meanings of the arithmetic and logic instructions (spec/40_arithmetic_logic.md R144-R165), one definition each.
Every one ends with `pc <- pc + 1` and stops nowhere (R140). -/

namespace Sys2Proof.Machine

/-- The end every instruction of this family has: SREG, the destination register, and the pc one word on (R140). -/
def writeBack (d : Reg) (r sreg : Byte) (s : State) : Result :=
  .next (((s.setSreg sreg).setReg d r).advance 1)

/-- The end of the instructions that write no register: SREG, and the pc one word on (R140). -/
def writeFlags (sreg : Byte) (s : State) : Result := .next ((s.setSreg sreg).advance 1)

/-- The end of ADIW and SBIW: SREG, the pair, and the pc one word on (R146, R151). -/
def writeBackPair (lo : Reg) (r : Word) (sreg : Byte) (s : State) : Result :=
  .next (((s.setSreg sreg).setPair lo r).advance 1)

/-- ADD (R144). -/
def execAdd (d r : Reg) (s : State) : Result :=
  writeBack d (addResult (s.reg d) (s.reg r) false) (addSreg s.sreg (s.reg d) (s.reg r) false) s

/-- ADC (R145). -/
def execAdc (d r : Reg) (s : State) : Result :=
  writeBack d (addResult (s.reg d) (s.reg r) (s.flag .C)) (addSreg s.sreg (s.reg d) (s.reg r) (s.flag .C)) s

/-- ADIW (R146). -/
def execAdiw (d : Reg) (K : BitVec 6) (s : State) : Result :=
  let a := s.pair d
  let r := a + K.setWidth 16
  writeBackPair d r (adiwSreg s.sreg a r) s

/-- SUB (R147). -/
def execSub (d r : Reg) (s : State) : Result :=
  writeBack d (subResult (s.reg d) (s.reg r) false) (subSreg s.sreg (s.reg d) (s.reg r) false false) s

/-- SUBI (R148). -/
def execSubi (d : Reg) (K : Byte) (s : State) : Result :=
  writeBack d (subResult (s.reg d) K false) (subSreg s.sreg (s.reg d) K false false) s

/-- SBC (R149). -/
def execSbc (d r : Reg) (s : State) : Result :=
  writeBack d (subResult (s.reg d) (s.reg r) (s.flag .C)) (subSreg s.sreg (s.reg d) (s.reg r) (s.flag .C) true) s

/-- SBCI (R150). -/
def execSbci (d : Reg) (K : Byte) (s : State) : Result :=
  writeBack d (subResult (s.reg d) K (s.flag .C)) (subSreg s.sreg (s.reg d) K (s.flag .C) true) s

/-- SBIW (R151). -/
def execSbiw (d : Reg) (K : BitVec 6) (s : State) : Result :=
  let a := s.pair d
  let r := a - K.setWidth 16
  writeBackPair d r (sbiwSreg s.sreg a r) s

/-- AND (R152). -/
def execAnd (d r : Reg) (s : State) : Result :=
  let v := s.reg d &&& s.reg r
  writeBack d v (logicSreg s.sreg v) s

/-- ANDI (R153). -/
def execAndi (d : Reg) (K : Byte) (s : State) : Result :=
  let v := s.reg d &&& K
  writeBack d v (logicSreg s.sreg v) s

/-- OR (R154). -/
def execOr (d r : Reg) (s : State) : Result :=
  let v := s.reg d ||| s.reg r
  writeBack d v (logicSreg s.sreg v) s

/-- ORI (R155). -/
def execOri (d : Reg) (K : Byte) (s : State) : Result :=
  let v := s.reg d ||| K
  writeBack d v (logicSreg s.sreg v) s

/-- EOR (R156). -/
def execEor (d r : Reg) (s : State) : Result :=
  let v := s.reg d ^^^ s.reg r
  writeBack d v (logicSreg s.sreg v) s

/-- COM (R157). -/
def execCom (d : Reg) (s : State) : Result :=
  let v := 0xFF - s.reg d
  writeBack d v (comSreg s.sreg v) s

/-- NEG (R158). -/
def execNeg (d : Reg) (s : State) : Result :=
  let v := 0x00 - s.reg d
  writeBack d v (negSreg s.sreg (s.reg d) v) s

/-- SBR (R159), by its own rule: the mask K is set in Rd. -/
def execSbr (d : Reg) (K : Byte) (s : State) : Result :=
  let v := s.reg d ||| K
  writeBack d v (logicSreg s.sreg v) s

/-- CBR (R160), by its own rule: the mask K is cleared in Rd. -/
def execCbr (d : Reg) (K : Byte) (s : State) : Result :=
  let v := s.reg d &&& (0xFF - K)
  writeBack d v (logicSreg s.sreg v) s

/-- INC (R161). -/
def execInc (d : Reg) (s : State) : Result :=
  let v := s.reg d + 1
  writeBack d v (incSreg s.sreg v) s

/-- DEC (R162). -/
def execDec (d : Reg) (s : State) : Result :=
  let v := s.reg d - 1
  writeBack d v (decSreg s.sreg v) s

/-- TST (R163), by its own rule: the flags of Rd, which is not written. -/
def execTst (d : Reg) (s : State) : Result := writeFlags (logicSreg s.sreg (s.reg d)) s

/-- CLR (R164), by its own rule. -/
def execClr (d : Reg) (s : State) : Result := writeBack d 0x00 (clrSreg s.sreg) s

/-- SER (R165), by its own rule: no flag is written. -/
def execSer (d : Reg) (s : State) : Result := writeBack d 0xFF s.sreg s

end Sys2Proof.Machine
end

