-- ==== Sys2Proof/Machine/BitOps.lean ====
section
/-! DEFINITION. The meanings of the bit and bit-test instructions (spec/44_bit_and_bittest.md R321-R348), one definition each. -/

namespace Sys2Proof.Machine

/-- The end every shift has: SREG, the register, and the pc one word on (R320). -/
def shiftBack (d : Reg) (r sreg : Byte) (s : State) : Result :=
  .next (((s.setSreg sreg).setReg d r).advance 1)

/-- LSL (R321), by its own rule. -/
def execLsl (d : Reg) (s : State) : Result :=
  let a := s.reg d
  let r := a <<< 1
  shiftBack d r (shiftLeftSreg s.sreg a r) s

/-- LSR (R322). -/
def execLsr (d : Reg) (s : State) : Result :=
  let a := s.reg d
  let r := a >>> 1
  shiftBack d r (shiftRightSreg s.sreg a r) s

/-- ROL (R323), by its own rule: the old C enters bit 0. -/
def execRol (d : Reg) (s : State) : Result :=
  let a := s.reg d
  let r := a.extractLsb' 0 7 ++ BitVec.ofBool (s.flag .C)
  shiftBack d r (shiftLeftSreg s.sreg a r) s

/-- ROR (R324): the old C enters bit 7. -/
def execRor (d : Reg) (s : State) : Result :=
  let a := s.reg d
  let r := BitVec.ofBool (s.flag .C) ++ a.extractLsb' 1 7
  shiftBack d r (shiftRightSreg s.sreg a r) s

/-- ASR (R325): bit 7 is held. -/
def execAsr (d : Reg) (s : State) : Result :=
  let a := s.reg d
  let r := a.extractLsb' 7 1 ++ a.extractLsb' 1 7
  shiftBack d r (shiftRightSreg s.sreg a r) s

/-- SWAP (R326). -/
def execSwap (d : Reg) (s : State) : Result :=
  let a := s.reg d
  .next ((s.setReg d (a.extractLsb' 0 4 ++ a.extractLsb' 4 4)).advance 1)

/-- SBI (R327, R73). -/
def execSbi (A : BitVec 5) (b : Fin 8) (s : State) : Result :=
  .next ((ioPutBit (A.setWidth 6) b true s).advance 1)

/-- CBI (R328, R73). -/
def execCbi (A : BitVec 5) (b : Fin 8) (s : State) : Result :=
  .next ((ioPutBit (A.setWidth 6) b false s).advance 1)

/-- BST (R329). -/
def execBst (d : Reg) (b : Fin 8) (s : State) : Result :=
  .next ((s.setSreg (putFlag s.sreg .T ((s.reg d).getLsbD b.val))).advance 1)

/-- BLD (R330). -/
def execBld (d : Reg) (b : Fin 8) (s : State) : Result :=
  .next ((s.setReg d (putBit (s.reg d) b.val (s.flag .T))).advance 1)

/-- BSET (R331): BSET 7 delays interrupts by one instruction (R42). -/
def execBset (b : Fin 8) (s : State) : Result :=
  let s1 := s.setSreg (putBit s.sreg b.val true)
  .next ((if b = 7 then s1.setInhibit true else s1).advance 1)

/-- BCLR (R332). -/
def execBclr (b : Fin 8) (s : State) : Result := .next ((s.setSreg (putBit s.sreg b.val false)).advance 1)

/-- Set or clear one named flag and move on (R333-R348). -/
def putFlagNext (f : Flag) (v : Bool) (s : State) : State := (s.setSreg (putFlag s.sreg f v)).advance 1

/-- SEC (R333). -/
def execSec (s : State) : Result := .next (putFlagNext .C true s)

/-- CLC (R334). -/
def execClc (s : State) : Result := .next (putFlagNext .C false s)

/-- SEN (R335). -/
def execSen (s : State) : Result := .next (putFlagNext .N true s)

/-- CLN (R336). -/
def execCln (s : State) : Result := .next (putFlagNext .N false s)

/-- SEZ (R337). -/
def execSez (s : State) : Result := .next (putFlagNext .Z true s)

/-- CLZ (R338). -/
def execClz (s : State) : Result := .next (putFlagNext .Z false s)

/-- SEI (R339): the next instruction runs before any pending interrupt (R42). -/
def execSei (s : State) : Result := .next ((putFlagNext .I true s).setInhibit true)

/-- CLI (R340). -/
def execCli (s : State) : Result := .next (putFlagNext .I false s)

/-- SES (R341). -/
def execSes (s : State) : Result := .next (putFlagNext .S true s)

/-- CLS (R342). -/
def execCls (s : State) : Result := .next (putFlagNext .S false s)

/-- SEV (R343). -/
def execSev (s : State) : Result := .next (putFlagNext .V true s)

/-- CLV (R344). -/
def execClv (s : State) : Result := .next (putFlagNext .V false s)

/-- SET (R345). -/
def execSet (s : State) : Result := .next (putFlagNext .T true s)

/-- CLT (R346). -/
def execClt (s : State) : Result := .next (putFlagNext .T false s)

/-- SEH (R347). -/
def execSeh (s : State) : Result := .next (putFlagNext .H true s)

/-- CLH (R348). -/
def execClh (s : State) : Result := .next (putFlagNext .H false s)

end Sys2Proof.Machine
end

