-- ==== Sys2Proof/Machine/Branch.lean ====
section
/-! DEFINITION. The meanings of the jumps, calls, returns, compares, skips and branches (spec/42_branch.md R193-R231), one definition
each. -/

namespace Sys2Proof.Machine

/-- RJMP (R193). -/
def execRjmp (k : BitVec 12) (s : State) : Result := .next (s.setPc (pcAdd s.cfg s.pc (k.toInt + 1)))

/-- IJMP (R194): PC(21:16) become 0 (D25). -/
def execIjmp (s : State) : Result := .next (s.setPc ((s.pair 30).setWidth 22))

/-- The target of EIJMP and EICALL: EIND[5:0]:Z, truncated to `PC_BITS` (R195, R199). -/
def eindTarget (s : State) : PcWord :=
  pcTrunc s.cfg ((if s.cfg.hasEind then s.eind else 0#8).extractLsb' 0 6 ++ s.pair 30)

/-- EIJMP (R195). -/
def execEijmp (s : State) : Result := .next (s.setPc (eindTarget s))

/-- JMP (R196). -/
def execJmp (k : BitVec 22) (s : State) : Result := .next (s.setPc (pcTrunc s.cfg k))

/-- RCALL (R197). -/
def execRcall (k : BitVec 12) (s : State) : Result :=
  finish (call (pcAdd s.cfg s.pc 1) (pcAdd s.cfg s.pc (k.toInt + 1)) s)

/-- ICALL (R198): the target is read before the push (R201). -/
def execIcall (s : State) : Result := finish (call (pcAdd s.cfg s.pc 1) ((s.pair 30).setWidth 22) s)

/-- EICALL (R199). -/
def execEicall (s : State) : Result := finish (call (pcAdd s.cfg s.pc 1) (eindTarget s) s)

/-- CALL (R200). -/
def execCall (k : BitVec 22) (s : State) : Result := finish (call (pcAdd s.cfg s.pc 2) (pcTrunc s.cfg k) s)

/-- RET (R202). -/
def execRet (s : State) : Result := finish (return_ s)

/-- RETI (R203, R382). -/
def execReti (s : State) : Result := finish (interruptReturn s)

/-- CPSE (R204). -/
def execCpse (d r : Reg) (s : State) : Result := finish (skip (s.reg d == s.reg r) s)

/-- CP (R205). -/
def execCp (d r : Reg) (s : State) : Result :=
  .next ((s.setSreg (subSreg s.sreg (s.reg d) (s.reg r) false false)).advance 1)

/-- CPC (R206). -/
def execCpc (d r : Reg) (s : State) : Result :=
  .next ((s.setSreg (subSreg s.sreg (s.reg d) (s.reg r) (s.flag .C) true)).advance 1)

/-- CPI (R207). -/
def execCpi (d : Reg) (K : Byte) (s : State) : Result :=
  .next ((s.setSreg (subSreg s.sreg (s.reg d) K false false)).advance 1)

/-- SBRC (R208). -/
def execSbrc (r : Reg) (b : Fin 8) (s : State) : Result := finish (skip (!(s.reg r).getLsbD b.val) s)

/-- SBRS (R209). -/
def execSbrs (r : Reg) (b : Fin 8) (s : State) : Result := finish (skip ((s.reg r).getLsbD b.val) s)

/-- SBIC (R210): the I/O location is read once. -/
def execSbic (A : BitVec 5) (b : Fin 8) (s : State) : Result :=
  let x := ioRead (A.setWidth 6) s
  finish (skip (!x.1.getLsbD b.val) x.2)

/-- SBIS (R211). -/
def execSbis (A : BitVec 5) (b : Fin 8) (s : State) : Result :=
  let x := ioRead (A.setWidth 6) s
  finish (skip (x.1.getLsbD b.val) x.2)

/-- BRBS (R212). -/
def execBrbs (b : Fin 8) (k : BitVec 7) (s : State) : Result := .next (s.branch (s.sreg.getLsbD b.val) k.toInt)

/-- BRBC (R213). -/
def execBrbc (b : Fin 8) (k : BitVec 7) (s : State) : Result := .next (s.branch (!s.sreg.getLsbD b.val) k.toInt)

/-- BREQ (R214). -/
def execBreq (k : BitVec 7) (s : State) : Result := .next (s.branch (s.flag .Z) k.toInt)

/-- BRNE (R215). -/
def execBrne (k : BitVec 7) (s : State) : Result := .next (s.branch (!s.flag .Z) k.toInt)

/-- BRCS (R216). -/
def execBrcs (k : BitVec 7) (s : State) : Result := .next (s.branch (s.flag .C) k.toInt)

/-- BRCC (R217). -/
def execBrcc (k : BitVec 7) (s : State) : Result := .next (s.branch (!s.flag .C) k.toInt)

/-- BRSH (R218). -/
def execBrsh (k : BitVec 7) (s : State) : Result := .next (s.branch (!s.flag .C) k.toInt)

/-- BRLO (R219). -/
def execBrlo (k : BitVec 7) (s : State) : Result := .next (s.branch (s.flag .C) k.toInt)

/-- BRMI (R220). -/
def execBrmi (k : BitVec 7) (s : State) : Result := .next (s.branch (s.flag .N) k.toInt)

/-- BRPL (R221). -/
def execBrpl (k : BitVec 7) (s : State) : Result := .next (s.branch (!s.flag .N) k.toInt)

/-- BRGE (R222). -/
def execBrge (k : BitVec 7) (s : State) : Result := .next (s.branch (!s.flag .S) k.toInt)

/-- BRLT (R223). -/
def execBrlt (k : BitVec 7) (s : State) : Result := .next (s.branch (s.flag .S) k.toInt)

/-- BRHS (R224). -/
def execBrhs (k : BitVec 7) (s : State) : Result := .next (s.branch (s.flag .H) k.toInt)

/-- BRHC (R225). -/
def execBrhc (k : BitVec 7) (s : State) : Result := .next (s.branch (!s.flag .H) k.toInt)

/-- BRTS (R226). -/
def execBrts (k : BitVec 7) (s : State) : Result := .next (s.branch (s.flag .T) k.toInt)

/-- BRTC (R227). -/
def execBrtc (k : BitVec 7) (s : State) : Result := .next (s.branch (!s.flag .T) k.toInt)

/-- BRVS (R228). -/
def execBrvs (k : BitVec 7) (s : State) : Result := .next (s.branch (s.flag .V) k.toInt)

/-- BRVC (R229). -/
def execBrvc (k : BitVec 7) (s : State) : Result := .next (s.branch (!s.flag .V) k.toInt)

/-- BRIE (R230). -/
def execBrie (k : BitVec 7) (s : State) : Result := .next (s.branch (s.flag .I) k.toInt)

/-- BRID (R231). -/
def execBrid (k : BitVec 7) (s : State) : Result := .next (s.branch (!s.flag .I) k.toInt)

end Sys2Proof.Machine
end

