-- ==== Sys2Proof/Machine/Control.lean ====
section
/-! DEFINITION. The meanings of the MCU control instructions (spec/45_mcu_control.md R360-R363), one definition each. -/

namespace Sys2Proof.Machine

/-- BREAK (R360): with the debugger enabled the run ends in Stopped, else it is NOP. -/
def execBreak (s : State) : Result :=
  let s1 := s.advance 1
  .next (if ocdEnabled s then s1.setRun .stopped else s1)

/-- NOP (R361). -/
def execNop (s : State) : Result := .next (s.advance 1)

/-- SLEEP (R362): with SLEEP_ENABLED the machine sleeps, else it is NOP. -/
def execSleep (s : State) : Result :=
  let s1 := s.advance 1
  .next (if s.sleepEnabled then s1.setRun .sleeping else s1)

/-- WDR (R363): `WdrEffect` acts on the platform only. -/
def execWdr (s : State) : Result := .next ((s.record .wdr).advance 1)

end Sys2Proof.Machine
end

