-- ==== Sys2Proof/Machine/Multiply.lean ====
section
/-! DEFINITION. The meanings of the six multiplies (spec/41_multiply_des.md R180-R186) and of DES (R187), one definition each. -/

namespace Sys2Proof.Machine

/-- The end every multiply has: the flags Z and C, R1:R0, and the pc one word on (R180). `p` is the product before any
shift, `r` what R1:R0 get. -/
def writeProduct (p r : Word) (s : State) : Result :=
  .next (((s.setSreg (mulSreg s.sreg p r)).setPair 0 r).advance 1)

/-- MUL (R181). -/
def execMul (d r : Reg) (s : State) : Result :=
  let p := product .unsigned .unsigned (s.reg d) (s.reg r)
  writeProduct p p s

/-- MULS (R182). -/
def execMuls (d r : Reg) (s : State) : Result :=
  let p := product .signed .signed (s.reg d) (s.reg r)
  writeProduct p p s

/-- MULSU (R183). -/
def execMulsu (d r : Reg) (s : State) : Result :=
  let p := product .signed .unsigned (s.reg d) (s.reg r)
  writeProduct p p s

/-- FMUL (R184). -/
def execFmul (d r : Reg) (s : State) : Result :=
  let p := product .unsigned .unsigned (s.reg d) (s.reg r)
  writeProduct p (fractional p) s

/-- FMULS (R185). -/
def execFmuls (d r : Reg) (s : State) : Result :=
  let p := product .signed .signed (s.reg d) (s.reg r)
  writeProduct p (fractional p) s

/-- FMULSU (R186). -/
def execFmulsu (d r : Reg) (s : State) : Result :=
  let p := product .signed .unsigned (s.reg d) (s.reg r)
  writeProduct p (fractional p) s

/-- DES (R187): R0 to R15 become `DesRound` of R0 to R15, K and H; no flag is written. Refused where the configuration
supplies no `DesRound` (R371). -/
def execDes (K : BitVec 4) (s : State) : Result :=
  if s.cfg.hasDesRound then
    .next ((setDesBlock s (Config.desRound.round (desBlock s) K (s.flag .H))).advance 1)
  else .refused .desNotModelled

end Sys2Proof.Machine
end

