-- ==== Sys2Proof/Machine/Transfer.lean ====
section
/-! DEFINITION. The meanings of the data transfer instructions (spec/43_data_transfer.md R251-R298), one definition each. None
computes a flag (R250). -/

namespace Sys2Proof.Machine

/-- The end every one-word transfer has: the pc one word on (R250). -/
def transfer (x : Except Fault State) : Result := finish (x.map fun s => s.advance 1)

/-- The end of the two-word LDS and STS: the pc two words on (R250). -/
def transfer2 (x : Except Fault State) : Result := finish (x.map fun s => s.advance 2)

/-- MOV (R251). -/
def execMov (d r : Reg) (s : State) : Result := .next ((s.setReg d (s.reg r)).advance 1)

/-- MOVW (R252). -/
def execMovw (d r : Reg) (s : State) : Result := .next ((s.setPair d (s.pair r)).advance 1)

/-- LDI (R253). -/
def execLdi (d : Reg) (K : Byte) (s : State) : Result := .next ((s.setReg d K).advance 1)

/-- LDS, 32-bit encoding (R254). -/
def execLds (d : Reg) (k : BitVec 16) (s : State) : Result := transfer2 (loadAt d (directAddr k s) s)

/-- LDS, 16-bit encoding (R255). -/
def execLds16 (d : Reg) (k : BitVec 7) (s : State) : Result :=
  transfer (loadAt d ((addr16 s.cfg k).setWidth 24) s)

/-- LD Rd,X (R258). -/
def execLdX (d : Reg) (s : State) : Result := transfer (loadPtr .X d s)

/-- LD Rd,X+ (R259). -/
def execLdXInc (d : Reg) (s : State) : Result := transfer (loadPostInc .X d s)

/-- LD Rd,-X (R260). -/
def execLdXDec (d : Reg) (s : State) : Result := transfer (loadPreDec .X d s)

/-- LD Rd,Y (R261). -/
def execLdY (d : Reg) (s : State) : Result := transfer (loadPtr .Y d s)

/-- LD Rd,Y+ (R262). -/
def execLdYInc (d : Reg) (s : State) : Result := transfer (loadPostInc .Y d s)

/-- LD Rd,-Y (R263). -/
def execLdYDec (d : Reg) (s : State) : Result := transfer (loadPreDec .Y d s)

/-- LDD Rd,Y+q (R264). -/
def execLddY (d : Reg) (q : BitVec 6) (s : State) : Result := transfer (loadDisp .Y d q s)

/-- LD Rd,Z (R265). -/
def execLdZ (d : Reg) (s : State) : Result := transfer (loadPtr .Z d s)

/-- LD Rd,Z+ (R266). -/
def execLdZInc (d : Reg) (s : State) : Result := transfer (loadPostInc .Z d s)

/-- LD Rd,-Z (R267). -/
def execLdZDec (d : Reg) (s : State) : Result := transfer (loadPreDec .Z d s)

/-- LDD Rd,Z+q (R268). -/
def execLddZ (d : Reg) (q : BitVec 6) (s : State) : Result := transfer (loadDisp .Z d q s)

/-- STS, 32-bit encoding (R269). -/
def execSts (k : BitVec 16) (r : Reg) (s : State) : Result :=
  transfer2 (memWrite (directAddr k s).toNat (s.reg r) s)

/-- STS, 16-bit encoding (R270). -/
def execSts16 (k : BitVec 7) (r : Reg) (s : State) : Result :=
  transfer (memWrite ((addr16 s.cfg k).setWidth 24 : Addr24).toNat (s.reg r) s)

/-- ST X,Rr (R271). -/
def execStX (r : Reg) (s : State) : Result := transfer (storePtr .X r s)

/-- ST X+,Rr (R272). -/
def execStXInc (r : Reg) (s : State) : Result := transfer (storePostInc .X r s)

/-- ST -X,Rr (R273). -/
def execStXDec (r : Reg) (s : State) : Result := transfer (storePreDec .X r s)

/-- ST Y,Rr (R274). -/
def execStY (r : Reg) (s : State) : Result := transfer (storePtr .Y r s)

/-- ST Y+,Rr (R275). -/
def execStYInc (r : Reg) (s : State) : Result := transfer (storePostInc .Y r s)

/-- ST -Y,Rr (R276). -/
def execStYDec (r : Reg) (s : State) : Result := transfer (storePreDec .Y r s)

/-- STD Y+q,Rr (R277). -/
def execStdY (q : BitVec 6) (r : Reg) (s : State) : Result := transfer (storeDisp .Y q r s)

/-- ST Z,Rr (R278). -/
def execStZ (r : Reg) (s : State) : Result := transfer (storePtr .Z r s)

/-- ST Z+,Rr (R279). -/
def execStZInc (r : Reg) (s : State) : Result := transfer (storePostInc .Z r s)

/-- ST -Z,Rr (R280). -/
def execStZDec (r : Reg) (s : State) : Result := transfer (storePreDec .Z r s)

/-- STD Z+q,Rr (R281). -/
def execStdZ (q : BitVec 6) (r : Reg) (s : State) : Result := transfer (storeDisp .Z q r s)

/-- LPM (R282): Z is 16 bits wide, RAMPZ plays no part. -/
def execLpmR0 (s : State) : Result := transfer (loadProg 0 (s.pair 30).toNat s)

/-- LPM Rd,Z (R283). -/
def execLpm (d : Reg) (s : State) : Result := transfer (loadProg d (s.pair 30).toNat s)

/-- LPM Rd,Z+ (R284): the 16-bit Z is incremented, RAMPZ is not. -/
def execLpmInc (d : Reg) (s : State) : Result :=
  if isPtrHalf .Z d then .fault .undefinedCombination
  else transfer ((loadProg d (s.pair 30).toNat s).map fun s1 => s1.setPair 30 (s.pair 30 + 1))

/-- ELPM (R285). -/
def execElpmR0 (s : State) : Result := transfer (loadProg 0 s.rampZZ.toNat s)

/-- ELPM Rd,Z (R286). -/
def execElpm (d : Reg) (s : State) : Result := transfer (loadProg d s.rampZZ.toNat s)

/-- ELPM Rd,Z+ (R287): the whole of RAMPZ:Z is incremented. -/
def execElpmInc (d : Reg) (s : State) : Result :=
  if isPtrHalf .Z d then .fault .undefinedCombination
  else transfer ((loadProg d s.rampZZ.toNat s).map fun s1 => setRampZZ (s.rampZZ + 1) s1)

/-- SPM (R289): refused where the configuration supplies no `SpmEffect` (R371). -/
def execSpm (s : State) : Result :=
  if s.cfg.hasSpmEffect then .next ((spmEffect s).advance 1) else .refused .spmNotModelled

/-- SPM Z+ (R290): the effect is at the old Z, then the 16-bit Z is incremented by 2. -/
def execSpmInc (s : State) : Result :=
  if s.cfg.hasSpmEffect then .next (((spmEffect s).setPair 30 (s.pair 30 + 2)).advance 1)
  else .refused .spmNotModelled

/-- IN (R291): the location is read once. -/
def execIn (d : Reg) (A : BitVec 6) (s : State) : Result :=
  let x := ioRead A s
  .next ((x.2.setReg d x.1).advance 1)

/-- OUT (R292). -/
def execOut (A : BitVec 6) (r : Reg) (s : State) : Result := .next ((ioWrite A (s.reg r) s).advance 1)

/-- PUSH (R293). -/
def execPush (r : Reg) (s : State) : Result := transfer (push8 (s.reg r) s)

/-- POP (R294). -/
def execPop (d : Reg) (s : State) : Result :=
  transfer ((pop8 s).map fun x => x.2.setReg d x.1)

/-- XCH (R295): no restriction to SRAM. -/
def execXch (d : Reg) (s : State) : Result := transfer (rmw false (fun v _ => v) d s)

/-- LAS (R296). -/
def execLas (d : Reg) (s : State) : Result := transfer (rmw true (fun v m => v ||| m) d s)

/-- LAC (R297). -/
def execLac (d : Reg) (s : State) : Result := transfer (rmw true (fun v m => (0xFF - v) &&& m) d s)

/-- LAT (R298). -/
def execLat (d : Reg) (s : State) : Result := transfer (rmw true (fun v m => v ^^^ m) d s)

end Sys2Proof.Machine
end

