-- ==== Sys2Proof/Machine/Fetch.lean ====
section
/-! DEFINITION. Fetching: the instruction at the pc, read from program memory and decoded, or the fault of R378's order
(spec/20_memory.md R66, spec/60_exceptions.md R372-R375), and the load of one instruction from outside the machine. -/

namespace Sys2Proof.Machine

/-- The bytes of one word of program memory, none above FLASHEND (R66). -/
def fetchWord (s : State) (a : Nat) : List Byte :=
  if a ≤ s.cfg.flashEnd then [s.progCell (2 * a), s.progCell (2 * a + 1)] else []

/-- The bytes an instruction at the pc can have: the word at pc and the word at pc + 1 (R66). -/
def fetchBytes (s : State) : List Byte :=
  if s.pc.toNat ≤ s.cfg.flashEnd then fetchWord s s.pc.toNat ++ fetchWord s (s.pc.toNat + 1) else []

/-- The fault a rejected decoding is (R372-R375). -/
def decodeFault (pc : Nat) (e : DecodeError) : Fault :=
  match e with
  | .noFirstWord => .fetchOutOfRange pc
  | .reserved w => .reservedOpcode w
  | .unavailable f => .unavailableInstruction f
  | .noSecondWord => .fetchOutOfRange (pc + 1)
  | .registerOutOfRange r => .registerOutOfRange r

/-- The instruction at the pc (R16, R104). -/
def fetch (s : State) : Except Fault Instr :=
  match decode s.cfg (fetchBytes s) with
  | .ok (i, _) => .ok i
  | .error e => .error (decodeFault s.pc.toNat e)

/-- Store bytes in program memory from a byte address on. -/
def loadBytes (m : Memory) (b : Nat) (bytes : List Byte) : Memory :=
  match bytes with
  | [] => m
  | v :: rest => loadBytes (Memory.write progBlank m b v) (b + 1) rest

end Sys2Proof.Machine
end

