-- ==== Sys2Proof/Machine/Step.lean ====
section
/-! DEFINITION. One step of the machine (spec/60_exceptions.md R380, spec/00_scope.md R16), and the load of one
instruction where the next step fetches. -/

namespace Sys2Proof.Machine

/-- One step (R380): nothing on a Stopped machine; else the interrupt check; else nothing on a Sleeping one; else one
whole instruction, with `irq_inhibit` set after it only if it set it (R42). -/
def step (s : State) : Host.Outcome State Fault Refusal :=
  match s.run with
  | .stopped => .refused .runEnded
  | .sleeping =>
    match interruptTaken s with
    | some n => finish (interruptEntry n s)
    | none => .next s
  | .running =>
    match interruptTaken s with
    | some n => finish (interruptEntry n s)
    | none =>
      match fetch s with
      | .ok i => exec i (s.setInhibit false)
      | .error e => .fault e

/-- The machine with one instruction loaded at the pc (R401: the host loads the program image): its word as the opcode
table numbers it, every bit from `nbits` up being 0, as four bytes of program memory. -/
def State.withFetchWord (s : State) (nbits w : Nat) : State :=
  s.setProg (loadBytes s.prog (2 * s.pc.toNat) (tableBytes nbits w))

end Sys2Proof.Machine
end

