-- ==== Sys2Proof/Safety.lean ====
section
/-! DEFINITION. The terms in which claims about the machine are stated: the parts of the state and frames over them, the
byte an address reads as, what a read, a store, a push and a pop leave (spec/20_memory.md R60-R79), the outcomes of the
arithmetic in plain numbers (spec/40_arithmetic_logic.md R141-R143), who writes which flag (spec/10_state.md R28), and the
invariant of the machine. -/

namespace Sys2Proof.Machine

/-! ### Frames -/

/-- The stored SRAM byte at a data address, none where nothing has been written. -/
def State.sram (s : State) (a : Nat) : Option Byte := Memory.read dataBlank s.data a

/-- The parts of the state, the program counter apart: every register, flag, special register, byte of memory, hidden
bit and piece of platform state. -/
inductive Part where
  | reg (i : Reg)
  | flag (f : Flag)
  | sp
  | ramp (p : Ptr)
  | rampD
  | eind
  | sram (a : Nat)
  | prog (b : Nat)
  | inhibit
  | run
  | cfg
  | spmBuffer
  | lockBit
  | jtagen
  | ocden
  | sleepEnabled
  | irqPending
  | events
  | draws
  deriving DecidableEq, Repr

/-- The part is the same in both states. -/
def Part.same (p : Part) (s t : State) : Prop :=
  match p with
  | .reg i => t.reg i = s.reg i
  | .flag f => t.flag f = s.flag f
  | .sp => t.sp = s.sp
  | .ramp p => t.ramp p = s.ramp p
  | .rampD => t.rampD = s.rampD
  | .eind => t.eind = s.eind
  | .sram a => t.sram a = s.sram a
  | .prog b => t.progCell b = s.progCell b
  | .inhibit => t.irqInhibit = s.irqInhibit
  | .run => t.run = s.run
  | .cfg => t.cfg = s.cfg
  | .spmBuffer => t.spmBuffer = s.spmBuffer
  | .lockBit => t.lockBitSet = s.lockBitSet
  | .jtagen => t.jtagenProgrammed = s.jtagenProgrammed
  | .ocden => t.ocdenProgrammed = s.ocdenProgrammed
  | .sleepEnabled => t.sleepEnabled = s.sleepEnabled
  | .irqPending => t.irqPending = s.irqPending
  | .events => t.events = s.events
  | .draws => t.draws = s.draws

/-- Every part but the listed ones is the same: every register, every flag, every special register, every byte of both
memories and every piece of platform state. The pc may differ. -/
def Frame (but : List Part) (s t : State) : Prop := ∀ p, p ∉ but → p.same s t

/-- The flags Z, N, V and S. -/
def flagsSVNZ : List Part := [.flag .S, .flag .V, .flag .N, .flag .Z]

/-- The flags C, Z, N, V and S. -/
def flagsSVNZC : List Part := .flag .C :: flagsSVNZ

/-- The flags C, Z, N, V, S and H. -/
def flagsHSVNZC : List Part := .flag .H :: flagsSVNZC

/-- All of SREG. -/
def allFlags : List Part := .flag .I :: .flag .T :: flagsHSVNZC

/-- The pc of `t` is that of `s` moved by an offset, modulo `2^PC_WRAP_BITS` (R32). -/
def PcAt (s t : State) (offset : Int) : Prop :=
  (t.pc.toNat : Int) = (s.pc.toNat + offset) % ((2 ^ wrapWidth s.cfg : Nat) : Int)

/-- The instructions one after another. -/
def execAll (is : List Instr) (s : State) : Result :=
  match is with
  | [] => .next s
  | i :: rest =>
    match exec i s with
    | .next t => execAll rest t
    | r => r

/-- R0 to R15. -/
def lowRegs : List Part := (List.finRange 16).map fun n => .reg (n.castLE (by decide))

/-- Eight registers as one number, the register `lo` least significant (R187). -/
def regs8 (s : State) (lo : Reg) : BitVec 64 :=
  s.reg (lo + 7) ++ s.reg (lo + 6) ++ s.reg (lo + 5) ++ s.reg (lo + 4) ++ s.reg (lo + 3) ++ s.reg (lo + 2) ++
  s.reg (lo + 1) ++ s.reg lo

/-! ### Arithmetic outcomes in plain numbers -/

/-- S is N xor V (R26). -/
def SignIsNXorV (t : State) : Prop := t.flag .S = (t.flag .N ^^ t.flag .V)

/-- The flags after the sum a + b + cin (R141): carries out of bit 7 and bit 3, and V as the signed sum leaving its range. -/
def AddFlagsOutcome (a b : Byte) (cin : Bool) (t : State) : Prop :=
  let sum := a.toNat + b.toNat + cin.toNat
  let signed := a.toInt + b.toInt + cin.toNat
  (t.flag .C = true ↔ 256 ≤ sum) ∧
  (t.flag .H = true ↔ 16 ≤ a.toNat % 16 + b.toNat % 16 + cin.toNat) ∧
  (t.flag .V = true ↔ signed < -128 ∨ 127 < signed) ∧
  (t.flag .N = true ↔ 128 ≤ sum % 256) ∧
  (t.flag .Z = true ↔ sum % 256 = 0) ∧
  SignIsNXorV t

/-- The flags after the difference a - b - bin (R142): borrows into bit 8 and bit 4, V as the signed difference leaving its
range; `oldZ` is the Z that a zero result keeps. -/
def SubFlagsOutcome (a b : Byte) (bin oldZ : Bool) (t : State) : Prop :=
  let signed := a.toInt - b.toInt - bin.toNat
  (t.flag .C = true ↔ a.toNat < b.toNat + bin.toNat) ∧
  (t.flag .H = true ↔ a.toNat % 16 < b.toNat % 16 + bin.toNat) ∧
  (t.flag .V = true ↔ signed < -128 ∨ 127 < signed) ∧
  (t.flag .N = true ↔ 128 ≤ (256 + 256 + a.toNat - b.toNat - bin.toNat) % 256) ∧
  (t.flag .Z = true ↔ (256 + 256 + a.toNat - b.toNat - bin.toNat) % 256 = 0 ∧ oldZ = true) ∧
  SignIsNXorV t

/-- The flags after a logical result (R143). -/
def LogicFlagsOutcome (r : Byte) (t : State) : Prop :=
  t.flag .V = false ∧ (t.flag .N = true ↔ 128 ≤ r.toNat) ∧ (t.flag .Z = true ↔ r = 0) ∧ t.flag .S = t.flag .N

/-- The flags after a right shift of `a` to `r`: C is the bit shifted out, V is N xor C (R320). -/
def ShiftRightOutcome (a r : Byte) (t : State) : Prop :=
  t.flag .C = a.getLsbD 0 ∧ t.flag .N = r.getLsbD 7 ∧ (t.flag .Z = true ↔ r = 0) ∧
  t.flag .V = (t.flag .N ^^ t.flag .C) ∧ SignIsNXorV t

/-! ### The data space -/

/-- The byte `IoRead(A)` returns, by the case split of R70; on a device location the free value of the next draw. -/
def ioByte (s : State) (A : BitVec 6) : Byte :=
  let c := s.cfg
  if A = c.ioSreg then s.sreg
  else if A = c.ioSpl then BitVec.ofNat 8 s.sp.toNat
  else if A = c.ioSph ∧ 8 < c.spBits.width then BitVec.ofNat 8 (s.sp.toNat / 256)
  else if A = c.ioRampX ∧ c.hasRampX then s.rampX
  else if A = c.ioRampY ∧ c.hasRampY then s.rampY
  else if A = c.ioRampZ ∧ c.hasRampZ then s.rampZ
  else if A = c.ioRampD ∧ c.hasRampD then s.rampD
  else if A = c.ioEind ∧ c.hasEind then s.eind
  else Config.freeByte s.draws

/-- The device location a data address is, if it is one (R72). -/
def deviceAt (c : Config) (a : Nat) : Option DevLoc :=
  match classify c a with
  | .io A => if ioTarget c A = .device then some (.io A) else none
  | .extIo b => some (.ext b)
  | _ => none

/-- The byte `MemRead(a, 1)` returns (R62), where it returns one. -/
def dataByte (s : State) (a : Nat) : Byte :=
  match classify s.cfg a with
  | .reg i => s.reg i
  | .io A => ioByte s A
  | .extIo _ => Config.freeByte s.draws
  | .sram b => (s.sram b).getD 0
  | .extSram b => (s.sram b).getD 0
  | .flash b => s.progCell b
  | .unmapped => 0

/-- `MemRead(a, 1)` returns a byte: not unmapped, not above FLASHEND, and no SRAM byte that nothing has written. -/
def Readable (s : State) (a : Nat) : Prop :=
  match classify s.cfg a with
  | .sram b => s.sram b ≠ none
  | .extSram b => s.sram b ≠ none
  | .flash b => b / 2 ≤ s.cfg.flashEnd
  | .unmapped => False
  | _ => True

/-- `MemWrite(a, 1, v)` stores: neither unmapped nor a flash mapping (R63). -/
def Writable (c : Config) (a : Nat) : Prop :=
  match classify c a with
  | .flash _ => False
  | .unmapped => False
  | _ => True

/-- The fault of a read that returns no byte (R377, R48). -/
def readFault (s : State) (a : Nat) : Fault :=
  match classify s.cfg a with
  | .flash b => .unmappedAddress b
  | .unmapped => .unmappedAddress a
  | _ => .unwrittenMemory a

/-- The fault of a store that stores nothing (R377). -/
def writeFault (c : Config) (a : Nat) : Fault :=
  match classify c a with
  | .flash _ => .writeToFlashMapping a
  | _ => .unmappedAddress a

/-- The parts a read of a data address may change: those of the device oracle. -/
def readParts (c : Config) (a : Nat) : List Part := if deviceAt c a = none then [] else [.events, .draws]

/-- A read of a data address: on a device location one free byte is drawn and recorded (R72), and nothing else
happens. -/
def ReadEffect (a : Nat) (s t : State) : Prop :=
  Frame (readParts s.cfg a) s t ∧
  ∀ loc, deviceAt s.cfg a = some loc →
    t.events = .devRead loc (Config.freeByte s.draws) :: s.events ∧ t.draws = s.draws + 1

/-- A read of an I/O location (R70): on a device location one free byte is drawn and recorded. -/
def IoReadEffect (A : BitVec 6) (s t : State) : Prop :=
  if ioTarget s.cfg A = .device then
    t.events = .devRead (.io A) (Config.freeByte s.draws) :: s.events ∧ t.draws = s.draws + 1 ∧
      Frame [.events, .draws] s t
  else Frame [] s t

/-- A write of `v` to an I/O location (R71), whatever stands there. -/
def IoStored (A : BitVec 6) (v : Byte) (s t : State) : Prop :=
  match ioTarget s.cfg A with
  | .sreg =>
    t.sreg = v ∧ t.irqInhibit = (s.irqInhibit || (v.getLsbD 7 && !s.sreg.getLsbD 7)) ∧
      Frame (.inhibit :: allFlags) s t
  | .spl => t.sp.toNat = s.sp.toNat / 256 * 256 + v.toNat ∧ Frame [.sp] s t
  | .sph => t.sp.toNat = v.toNat * 256 + s.sp.toNat % 256 ∧ Frame [.sp] s t
  | .ramp p => t.ramp p = v ∧ Frame [.ramp p] s t
  | .rampD => t.rampD = v ∧ Frame [.rampD] s t
  | .eind => t.eind = v ∧ Frame [.eind] s t
  | .device => t.events = .devWrite (.io A) v :: s.events ∧ Frame [.events] s t

/-- A store of `v` to a data address (R63): what stands there gets `v`, and nothing else changes; in SRAM, every other
byte reads as before. -/
def Stored (a : Nat) (v : Byte) (s t : State) : Prop :=
  match classify s.cfg a with
  | .reg i => t.reg i = v ∧ Frame [.reg i] s t
  | .io A => IoStored A v s t
  | .extIo b => t.events = .devWrite (.ext b) v :: s.events ∧ Frame [.events] s t
  | .sram b => t.sram b = some v ∧ Frame [.sram b] s t
  | .extSram b => t.sram b = some v ∧ Frame [.sram b] s t
  | .flash _ => False
  | .unmapped => False

/-- The parts an update of a pointer writes (R85). -/
def ptrParts (c : Config) (p : Ptr) : List Part :=
  match ptrMode c p with
  | .small => [.reg (ptrLow p)]
  | .normal => [.reg (ptrLow p), .reg (ptrHigh p)]
  | .wide => [.reg (ptrLow p), .reg (ptrHigh p), .ramp p]

/-- The pointer holds `a` and nothing but the pointer has changed. -/
def PtrMoved (p : Ptr) (a : Addr24) (s t : State) : Prop := ptrGet p t = a ∧ Frame (ptrParts s.cfg p) s t

/-- The width W(P) of a pointer (R256). -/
def ptrWidth (c : Config) (p : Ptr) : Nat :=
  match ptrMode c p with
  | .small => 8
  | .normal => 16
  | .wide => 24

/-! ### The stack -/

/-- `RET_BYTES` (R8). -/
def retBytes (c : Config) : Nat :=
  match c.pcBits with
  | .bits16 => 2
  | .bits22 => 3

/-- The bytes `PushPC(v)` pushes, in the order it pushes them: the low byte first (R78). -/
def returnBytes (c : Config) (v : PcWord) : List Byte :=
  match c.pcBits with
  | .bits16 => [BitVec.ofNat 8 v.toNat, BitVec.ofNat 8 (v.toNat / 256)]
  | .bits22 => [BitVec.ofNat 8 v.toNat, BitVec.ofNat 8 (v.toNat / 256), BitVec.ofNat 8 (v.toNat / 65536)]

/-- The address of the `j`th byte pushed: SP, then one lower each time, modulo `2^SP_BITS` (R76). -/
def pushSlot (s : State) (j : Nat) : Nat :=
  match j with
  | 0 => s.sp.toNat
  | j + 1 => (pushSlot s j + 2 ^ s.cfg.spBits.width - 1) % 2 ^ s.cfg.spBits.width

/-- The address of the `j`th byte popped: one above SP, then one higher each time, modulo `2^SP_BITS` (R77). -/
def popSlot (s : State) (j : Nat) : Nat := (s.sp.toNat + j + 1) % 2 ^ s.cfg.spBits.width

/-- `Push8(v)` (R76): the store at SP, then SP one lower. -/
def Pushed (v : Byte) (s t : State) : Prop :=
  ∃ u, Stored s.sp.toNat v s u ∧ t.sp.toNat = pushSlot s 1 ∧ Frame [.sp] u t

/-- The bytes pushed one after another. -/
def PushedAll (vs : List Byte) (s t : State) : Prop :=
  match vs with
  | [] => t = s
  | v :: rest => ∃ u, Pushed v s u ∧ PushedAll rest u t

/-- `Pop8()` (R77): SP one higher, then the read at SP gives `v`. -/
def Popped (v : Byte) (s t : State) : Prop :=
  ∃ u, u.sp.toNat = popSlot s 0 ∧ Frame [.sp] s u ∧ v = dataByte u u.sp.toNat ∧ ReadEffect u.sp.toNat u t

/-- The bytes popped one after another. -/
def PoppedAll (vs : List Byte) (s t : State) : Prop :=
  match vs with
  | [] => t = s
  | v :: rest => ∃ u, Popped v s u ∧ PoppedAll rest u t

/-- The number that bytes popped high byte first stand for. -/
def bytesValue (vs : List Byte) : Nat := vs.foldl (fun n v => n * 256 + v.toNat) 0

/-! ### Interrupts -/

/-- What the model's interrupt entry leaves after its push (R381): the pc at the vector, I cleared (not on AVRxm), the
machine running and not inhibited, `IrqAck` recorded. -/
def EntryEffect (n : Nat) (s t : State) : Prop :=
  t.pc = vector s.cfg n ∧
  t.flag .I = (if s.cfg.core = .AVRxm then s.flag .I else false) ∧
  t.irqInhibit = false ∧ t.run = .running ∧ t.events = .irqAck n :: s.events ∧
  t.irqPending = (if n ∈ s.cfg.ackClears then s.irqPending.filter (· ≠ n) else s.irqPending) ∧
  t.draws = s.draws + 1 ∧
  Frame [.flag .I, .inhibit, .run, .events, .irqPending, .draws] s t

/-! ### Who writes what, over all instructions -/

/-- The summary tables of the manual, Tables 4-2 to 4-6. -/
inductive Table where
  | arithmetic | branch | transfer | bit | control
  deriving DecidableEq, Repr

/-- The summary table an instruction stands in. -/
def instrTable (i : Instr) : Table :=
  match i with
  | .add _ _ | .adc _ _ | .adiw _ _ | .sub _ _ | .subi _ _ | .sbc _ _ | .sbci _ _ | .sbiw _ _ | .and _ _ | .andi _ _
  | .or _ _ | .ori _ _ | .eor _ _ | .com _ | .neg _ | .sbr _ _ | .cbr _ _ | .inc _ | .dec _ | .tst _ | .clr _ | .ser _
  | .mul _ _ | .muls _ _ | .mulsu _ _ | .fmul _ _ | .fmuls _ _ | .fmulsu _ _ | .des _ => .arithmetic
  | .rjmp _ | .ijmp | .eijmp | .jmp _ | .rcall _ | .icall | .eicall | .call _ | .ret | .reti | .cpse _ _ | .cp _ _
  | .cpc _ _ | .cpi _ _ | .sbrc _ _ | .sbrs _ _ | .sbic _ _ | .sbis _ _ | .brbs _ _ | .brbc _ _ | .breq _ | .brne _
  | .brcs _ | .brcc _ | .brsh _ | .brlo _ | .brmi _ | .brpl _ | .brge _ | .brlt _ | .brhs _ | .brhc _ | .brts _
  | .brtc _ | .brvs _ | .brvc _ | .brie _ | .brid _ => .branch
  | .mov _ _ | .movw _ _ | .ldi _ _ | .lds _ _ | .lds16 _ _ | .ldX _ | .ldXInc _ | .ldXDec _ | .ldY _ | .ldYInc _
  | .ldYDec _ | .lddY _ _ | .ldZ _ | .ldZInc _ | .ldZDec _ | .lddZ _ _ | .sts _ _ | .sts16 _ _ | .stX _ | .stXInc _
  | .stXDec _ | .stY _ | .stYInc _ | .stYDec _ | .stdY _ _ | .stZ _ | .stZInc _ | .stZDec _ | .stdZ _ _ | .lpmR0
  | .lpm _ | .lpmInc _ | .elpmR0 | .elpm _ | .elpmInc _ | .spm | .spmInc | .inIo _ _ | .outIo _ _ | .push _ | .pop _
  | .xch _ | .las _ | .lac _ | .lat _ => .transfer
  | .lsl _ | .lsr _ | .rol _ | .ror _ | .asr _ | .swap _ | .sbi _ _ | .cbi _ _ | .bst _ _ | .bld _ _ | .bset _
  | .bclr _ | .sec | .clc | .sen | .cln | .sez | .clz | .sei | .cli | .ses | .cls | .sev | .clv | .set | .clt | .seh
  | .clh => .bit
  | .brk | .nop | .sleep | .wdr => .control

/-- Every register the instruction names exists on the core: on AVRrc, R16 to R31 only (R21, R113). -/
def RegsExist (c : Config) (i : Instr) : Prop := c.core = .AVRrc → ∀ r ∈ i.regs, 16 ≤ r.val

/-- The flags an instruction writes by its own rule (the table of R28); a write of SREG through the I/O or data space is
apart (`storesTo`). -/
def instrFlags (i : Instr) : List Flag :=
  match i with
  | .add _ _ | .adc _ _ | .sub _ _ | .subi _ _ | .sbc _ _ | .sbci _ _ | .neg _ | .cp _ _ | .cpc _ _ | .cpi _ _
  | .lsl _ | .rol _ => [.H, .S, .V, .N, .Z, .C]
  | .adiw _ _ | .sbiw _ _ | .com _ | .lsr _ | .ror _ | .asr _ => [.S, .V, .N, .Z, .C]
  | .and _ _ | .andi _ _ | .or _ _ | .ori _ _ | .eor _ _ | .sbr _ _ | .cbr _ _ | .inc _ | .dec _ | .tst _ | .clr _ =>
    [.S, .V, .N, .Z]
  | .mul _ _ | .muls _ _ | .mulsu _ _ | .fmul _ _ | .fmuls _ _ | .fmulsu _ _ => [.Z, .C]
  | .bst _ _ => [.T]
  | .bset b | .bclr b => [Flag.C, .Z, .N, .V, .S, .H, .T, .I].filter fun f => f.bit == b.val
  | .sec | .clc => [.C]
  | .sez | .clz => [.Z]
  | .sen | .cln => [.N]
  | .sev | .clv => [.V]
  | .ses | .cls => [.S]
  | .seh | .clh => [.H]
  | .set | .clt => [.T]
  | .sei | .cli | .reti => [.I]
  | _ => []

/-- The data addresses an instruction stores to in a state (R63): by its own operand form, or those of the stack bytes. -/
def storeAddrs (i : Instr) (s : State) : List Nat :=
  match i with
  | .sts k _ => [(directAddr k s).toNat]
  | .sts16 k _ => [(addr16 s.cfg k).toNat]
  | .stX _ | .stXInc _ => [(ptrGet .X s).toNat]
  | .stXDec _ => [(ptrAdd .X (-1) s).toNat]
  | .stY _ | .stYInc _ => [(ptrGet .Y s).toNat]
  | .stYDec _ => [(ptrAdd .Y (-1) s).toNat]
  | .stdY q _ => [(ptrAdd .Y (q.setWidth 24) s).toNat]
  | .stZ _ | .stZInc _ | .xch _ | .las _ | .lac _ | .lat _ => [(ptrGet .Z s).toNat]
  | .stZDec _ => [(ptrAdd .Z (-1) s).toNat]
  | .stdZ q _ => [(ptrAdd .Z (q.setWidth 24) s).toNat]
  | .push _ => [pushSlot s 0]
  | .rcall _ | .icall | .eicall | .call _ => (List.range (retBytes s.cfg)).map (pushSlot s)
  | _ => []

/-- The I/O locations an instruction stores to in a state: its own, or the one that DATA_MAP puts at an address it stores
to (R64). -/
def storeLocations (i : Instr) (s : State) : List (BitVec 6) :=
  match i with
  | .outIo A _ => [A]
  | .sbi A _ | .cbi A _ => [A.setWidth 6]
  | i => (storeAddrs i s).filterMap fun a =>
      match classify s.cfg a with
      | .io A => some A
      | _ => none

/-- The instruction stores to the I/O location of the given CPU register (R64, R70). -/
def storesTo (i : Instr) (s : State) (x : IoTarget) : Bool :=
  (storeLocations i s).any fun A => ioTarget s.cfg A == x

/-- The instructions that use SP (R36). -/
def usesSp (i : Instr) : Bool :=
  match i with
  | .push _ | .pop _ | .call _ | .rcall _ | .icall | .eicall | .ret | .reti => true
  | _ => false

/-- The instructions that set `irq_inhibit` whatever they write (R42): SEI, that is BSET 7, and RETI. -/
def delaysIrq (i : Instr) : Bool :=
  match i with
  | .bset b => b == 7
  | .sei => true
  | .reti => true
  | _ => false

/-- The transfers of control and the two-word instructions: the ones whose pc does not end one word on (R31). -/
def movesPc (i : Instr) : Bool :=
  match i with
  | .rjmp _ | .ijmp | .eijmp | .jmp _ | .rcall _ | .icall | .eicall | .call _ | .ret | .reti
  | .cpse _ _ | .sbrc _ _ | .sbrs _ _ | .sbic _ _ | .sbis _ _ | .brbs _ _ | .brbc _ _
  | .breq _ | .brne _ | .brcs _ | .brcc _ | .brsh _ | .brlo _ | .brmi _ | .brpl _ | .brge _ | .brlt _
  | .brhs _ | .brhc _ | .brts _ | .brtc _ | .brvs _ | .brvc _ | .brie _ | .brid _
  | .lds _ _ | .sts _ _ => true
  | _ => false

/-! ### The invariant -/

/-- What every reachable state satisfies: a consistent configuration, both memories in canonical form, data bytes only
where DATA_MAP has SRAM, program bytes only up to FLASHEND, and the pc and SP inside their widths. -/
structure State.Inv (s : State) : Prop where
  cfg : s.cfg.wf = true
  data : Memory.wf dataBlank s.data = true
  prog : Memory.wf progBlank s.prog = true
  mapped : ∀ e ∈ s.data, classify s.cfg e.1 = .sram e.1 ∨ classify s.cfg e.1 = .extSram e.1
  loaded : ∀ e ∈ s.prog, e.1 / 2 ≤ s.cfg.flashEnd
  pc : s.pc.toNat < 2 ^ s.cfg.pcBits.width
  sp : s.sp.toNat < 2 ^ s.cfg.spBits.width

end Sys2Proof.Machine
end

