-- ==== Sys2Proof/Certificates/Slice0/Obligations.lean ====
section
/-! DEFINITION. The statements about the machine, one `def Obligations.<Name> : Prop` each. They are over all states and
all configurations unless a hypothesis says otherwise, in the terms of Safety.lean: `Frame l s t` says that every register,
flag, special register, memory byte and piece of platform state but those of `l` is the same in `s` and `t` (the pc apart),
`PcAt s t n` that the pc has moved by n words. Where a clause rests on a decision the spec marks as its own (D<n> of
spec/92_eei_decisions.md) or on a choice of the model, the docstring names it and the log entry. -/

section
open Sys2Proof Sys2Proof.Machine

/-! ### Encoding, decoding, fetching -/

/-- R102, R104, R110, R111, R115 for the instructions of Table 4-2: decoding the words of a well-formed instruction that
the core has gives its canonical instruction, with the bytes after it. That AVRrc has no register below 16 to decode is
the spec's decision D16 (log 22). -/
def Obligations.DecodeOfEncodeArithmetic : Prop :=
  ∀ (c : Config) (i : Instr) (rest : List Byte), instrTable i = .arithmetic → i.wf = true →
    available c i.canonical.form = true → RegsExist c i →
    decode c (wordBytes (encode i) ++ rest) = .ok (i.canonical, rest)

/-- R102, R104, R110, R111, R115 for the instructions of Table 4-3. That AVRrc has no register below 16 to decode is the
spec's decision D16 (log 22). -/
def Obligations.DecodeOfEncodeBranch : Prop :=
  ∀ (c : Config) (i : Instr) (rest : List Byte), instrTable i = .branch → i.wf = true →
    available c i.canonical.form = true → RegsExist c i →
    decode c (wordBytes (encode i) ++ rest) = .ok (i.canonical, rest)

/-- R102, R104, R110, R111, R115 for the instructions of Table 4-4. That AVRrc has no register below 16 to decode is the
spec's decision D16 (log 22). -/
def Obligations.DecodeOfEncodeTransfer : Prop :=
  ∀ (c : Config) (i : Instr) (rest : List Byte), instrTable i = .transfer → i.wf = true →
    available c i.canonical.form = true → RegsExist c i →
    decode c (wordBytes (encode i) ++ rest) = .ok (i.canonical, rest)

/-- R102, R104, R110, R111, R115 for the instructions of Tables 4-5 and 4-6. That AVRrc has no register below 16 to decode
is the spec's decision D16 (log 22). -/
def Obligations.DecodeOfEncodeBitAndControl : Prop :=
  ∀ (c : Config) (i : Instr) (rest : List Byte), instrTable i = .bit ∨ instrTable i = .control → i.wf = true →
    available c i.canonical.form = true → RegsExist c i →
    decode c (wordBytes (encode i) ++ rest) = .ok (i.canonical, rest)

/-- R100, R102, R104: no bit of a decoded word is lost. What decodes is a well-formed, canonical instruction that the core
has, and its encoding is exactly the bytes read. That AVRrc has no register below 16 to decode is the spec's decision D16
(log 22). -/
def Obligations.EncodeOfDecode : Prop :=
  ∀ (c : Config) (bytes : List Byte) (i : Instr) (rest : List Byte), decode c bytes = .ok (i, rest) →
    bytes = wordBytes (encode i) ++ rest ∧ i.wf = true ∧ i.canonical = i ∧ available c i.form = true ∧ RegsExist c i

/-- R107, R373: the first words that no opcode line matches are exactly the listed ones, on every core, and fetching one
faults with `ReservedOpcode`. The fault is the spec's decision D1 (log 22). -/
def Obligations.ReservedWordsAreTheListedOnes : Prop :=
  let listed (w : Word) : Prop :=
    (w &&& 0xFF00 = 0x0000 ∧ w ≠ 0x0000) ∨
    (w &&& 0xFC00 = 0x9000 ∧ (w &&& 0x000F = 0x3 ∨ w &&& 0x000F = 0x8 ∨ w &&& 0x000F = 0xB)) ∨
    w &&& 0xFE0F = 0x9404 ∨
    (w &&& 0xFE0F = 0x9409 ∧ w ≠ 0x9409 ∧ w ≠ 0x9419 ∧ w ≠ 0x9509 ∧ w ≠ 0x9519) ∨
    w &&& 0xFF0F = 0x950B ∨
    w ∈ [0x9528, 0x9538, 0x9548, 0x9558, 0x9568, 0x9578, 0x95B8] ∨
    w &&& 0xF808 = 0xF808
  (∀ (c : Config) (w : Word) (rest : List Byte),
    decode c (wordBytes [w] ++ rest) = .error (.reserved w) ↔ listed w) ∧
  ∀ s : State, s.run = .running → interruptTaken s = none → s.pc.toNat ≤ s.cfg.flashEnd →
    listed (s.progWord s.pc.toNat) → step s = .fault (.reservedOpcode (s.progWord s.pc.toNat))

/-- R100, R103: the first word alone decides the length, by four bit patterns, and a decoded instruction takes one more
word where they match and none where they do not. That the bits alone decide is the spec's decision D17 (log 29). -/
def Obligations.InstructionLengthFollowsFirstWord : Prop :=
  let two (w : Word) : Prop :=
    w &&& 0xFE0E = 0x940C ∨ w &&& 0xFE0E = 0x940E ∨ w &&& 0xFE0F = 0x9000 ∨ w &&& 0xFE0F = 0x9200
  (∀ w : Word, isTwoWord w = true ↔ two w) ∧
  ∀ (c : Config) (w : Word) (tail : List Byte) (i : Instr) (rest : List Byte),
    decode c (wordBytes [w] ++ tail) = .ok (i, rest) →
    (two w → (encode i).length = 2 ∧ ∃ w2, tail = wordBytes [w2] ++ rest) ∧
    (¬ two w → (encode i).length = 1 ∧ tail = rest)

/-- R16, R66, R380: with no interrupt to take, a step of a running machine whose bytes at the pc decode to an instruction
is that instruction, with `irq_inhibit` cleared before it. A first word at FLASHEND has no second word. Where the
interrupt check stands is the spec's decision D7 (log 11). -/
def Obligations.DecodedInstructionRuns : Prop :=
  ∀ (s : State) (i : Instr) (rest : List Byte), s.run = .running → interruptTaken s = none →
    s.pc.toNat ≤ s.cfg.flashEnd →
    decode s.cfg (wordBytes (s.progWord s.pc.toNat ::
      (if s.pc.toNat + 1 ≤ s.cfg.flashEnd then [s.progWord (s.pc.toNat + 1)] else []))) = .ok (i, rest) →
    step s = exec i (s.setInhibit false)

/-- R16, R104, R115: where program memory at the pc holds the words of a well-formed instruction that the core has, the
step runs its canonical instruction. Where the interrupt check stands is the spec's decision D7 (log 11). -/
def Obligations.EncodedInstructionRuns : Prop :=
  ∀ (s : State) (i : Instr), s.run = .running → interruptTaken s = none → i.wf = true →
    available s.cfg i.canonical.form = true → RegsExist s.cfg i →
    s.pc.toNat + (encode i).length ≤ s.cfg.flashEnd + 1 →
    (∀ n (h : n < (encode i).length), s.progWord (s.pc.toNat + n) = (encode i)[n]) →
    step s = exec i.canonical (s.setInhibit false)

/-- Worked lines of R144, R182, R195, R196, R200, R252, R254, R255, R264, R291, R327, R331 and R360: the word each writes
out decodes to its instruction under the configuration of reset (that of R255 on AVRrc). The configuration of reset is the
model's choice (log 2). -/
def Obligations.WrittenWordsDecode : Prop :=
  let c := defaultConfig
  decode c (wordBytes [0x0C12]) = .ok (.add 1 2, []) ∧
  decode c (wordBytes [0x0254]) = .ok (.muls 21 20, []) ∧
  decode c (wordBytes [0x9419]) = .ok (.eijmp, []) ∧
  decode c (wordBytes [0x942D, 0x1000]) = .ok (.jmp 0x051000, []) ∧
  decode c (wordBytes [0x95DE, 0xBCDE]) = .ok (.call 0x3ABCDE, []) ∧
  decode c (wordBytes [0x01FC]) = .ok (.movw 30 24, []) ∧
  decode c (wordBytes [0x9020, 0xFF00]) = .ok (.lds 2 0xFF00, []) ∧
  decode { c with core := .AVRrc } (wordBytes [0xA30F]) = .ok (.lds16 16 0x3F, []) ∧
  decode c (wordBytes [0x804A]) = .ok (.lddY 4 2, []) ∧
  decode c (wordBytes [0xB396]) = .ok (.inIo 25 0x16, []) ∧
  decode c (wordBytes [0x9AE0]) = .ok (.sbi 0x1C 0, []) ∧
  decode c (wordBytes [0x9478]) = .ok (.bset 7, []) ∧
  decode c (wordBytes [0x9598]) = .ok (.brk, [])

/-- R7, R10, R109: the forms a core or a device lacks, listed. R104, R372 to R375, R378: a step that cannot decode its
instruction faults, and the first cause of R378's order is the one reported: first word above FLASHEND, reserved,
unavailable, second word above FLASHEND, register below 16 on AVRrc. The faults are the spec's decisions D1, D2, D6 and
D16 (log 22, log 24); that the configuration says whether AVR and AVRe have SPM Z+ is the model's (log 20). -/
def Obligations.FetchFaultsInOrder : Prop :=
  let multiplies : List Form := [.mul, .muls, .mulsu, .fmul, .fmuls, .fmulsu]
  let lacks (c : Config) : List Form :=
    (match c.core with
      | .AVR => multiplies ++ [.movw, .lpm, .lpmInc, .des, .xch, .las, .lac, .lat, .lds16, .sts16] ++
        (if c.spmIncClassic then [] else [.spmInc])
      | .AVRe => (if c.hasMul then [] else multiplies) ++ [.des, .xch, .las, .lac, .lat, .lds16, .sts16] ++
        (if c.spmIncClassic then [] else [.spmInc])
      | .AVRxm => [.lds16, .sts16]
      | .AVRxt => [.des, .xch, .las, .lac, .lat, .lds16, .sts16]
      | .AVRrc => multiplies ++ [.adiw, .sbiw, .des, .eijmp, .jmp, .eicall, .call, .movw, .lds, .lddY, .lddZ, .sts, .stdY,
        .stdZ, .lpmR0, .lpm, .lpmInc, .elpmR0, .elpm, .elpmInc, .spm, .spmInc, .xch, .las, .lac, .lat]) ++
    (if c.hasEind then [] else [.eijmp, .eicall]) ++ (if c.hasRampZ then [] else [.elpmR0, .elpm, .elpmInc])
  (∀ (c : Config) (f : Form), available c f = true ↔ f ∉ c.absent ∧ f ∉ lacks c) ∧
  ∀ s : State, s.run = .running → interruptTaken s = none →
    let pc := s.pc.toNat
    let w := s.progWord pc
    (s.cfg.flashEnd < pc → step s = .fault (.fetchOutOfRange pc)) ∧
    (pc ≤ s.cfg.flashEnd → findForm s.cfg.core w = none → step s = .fault (.reservedOpcode w)) ∧
    ∀ f, pc ≤ s.cfg.flashEnd → findForm s.cfg.core w = some f →
      (available s.cfg f = false → step s = .fault (.unavailableInstruction f)) ∧
      (available s.cfg f = true → f.twoWords = true → pc = s.cfg.flashEnd → step s = .fault (.fetchOutOfRange (pc + 1))) ∧
      (available s.cfg f = true → s.cfg.core = .AVRrc →
        (f.twoWords = false ∨ pc + 1 ≤ s.cfg.flashEnd) →
        (∃ r ∈ (buildInstr f w (if f.twoWords then s.progWord (pc + 1) else 0)).regs, r.val < 16) →
        ∃ r : Reg, r.val < 16 ∧ step s = .fault (.registerOutOfRange r))

/-- R115: an alias has the bits of the instruction it stands for, and running it is running that instruction. -/
def Obligations.AliasActsAsCanonical : Prop :=
  ∀ (i : Instr) (s : State), encode i = encode i.canonical ∧ exec i s = exec i.canonical s

/-! ### Flag computations -/

/-- R141: `AddFlags`, as the rule's assignments and as its restored Boolean forms. -/
def Obligations.AddFlagsFollowTheirFormulas : Prop :=
  ∀ (sreg a b : Byte) (cin : Bool),
    let r := addResult a b cin
    let t := addSreg sreg a b cin
    let sum9 : BitVec 9 := a.setWidth 9 + b.setWidth 9 + (BitVec.ofBool cin).setWidth 9
    let bit (x : Byte) (n : Nat) : Bool := x.getLsbD n
    r = sum9.extractLsb' 0 8 ∧
    getFlag t .C = sum9.getLsbD 8 ∧
    getFlag t .H = ((a.extractLsb' 0 4).setWidth 5 + (b.extractLsb' 0 4).setWidth 5 +
      (BitVec.ofBool cin).setWidth 5 : BitVec 5).getLsbD 4 ∧
    getFlag t .V = (bit a 7 == bit b 7 && bit r 7 != bit a 7) ∧
    getFlag t .N = bit r 7 ∧
    getFlag t .Z = (r == 0x00) ∧
    getFlag t .S = (getFlag t .N ^^ getFlag t .V) ∧
    getFlag t .I = getFlag sreg .I ∧ getFlag t .T = getFlag sreg .T ∧
    getFlag t .H = (bit a 3 && bit b 3 || bit b 3 && !bit r 3 || !bit r 3 && bit a 3) ∧
    getFlag t .V = (bit a 7 && bit b 7 && !bit r 7 || !bit a 7 && !bit b 7 && bit r 7) ∧
    getFlag t .C = (bit a 7 && bit b 7 || bit b 7 && !bit r 7 || !bit r 7 && bit a 7) ∧
    getFlag t .Z = (!bit r 7 && !bit r 6 && !bit r 5 && !bit r 4 && !bit r 3 && !bit r 2 && !bit r 1 && !bit r 0)

/-- R142: `SubFlags`, as the rule's assignments and as its restored Boolean forms. -/
def Obligations.SubFlagsFollowTheirFormulas : Prop :=
  ∀ (sreg a b : Byte) (bin keepZ : Bool),
    let r := subResult a b bin
    let t := subSreg sreg a b bin keepZ
    let bit (x : Byte) (n : Nat) : Bool := x.getLsbD n
    let borrow9 : BitVec 9 := b.setWidth 9 + (BitVec.ofBool bin).setWidth 9
    let borrow5 : BitVec 5 := (b.extractLsb' 0 4).setWidth 5 + (BitVec.ofBool bin).setWidth 5
    r = a - b - (BitVec.ofBool bin).setWidth 8 ∧
    getFlag t .C = decide ((a.setWidth 9 : BitVec 9) < borrow9) ∧
    getFlag t .H = decide (((a.extractLsb' 0 4).setWidth 5 : BitVec 5) < borrow5) ∧
    getFlag t .V = (bit a 7 != bit b 7 && bit r 7 != bit a 7) ∧
    getFlag t .N = bit r 7 ∧
    getFlag t .Z = (if keepZ then r == 0x00 && getFlag sreg .Z else r == 0x00) ∧
    getFlag t .S = (getFlag t .N ^^ getFlag t .V) ∧
    getFlag t .I = getFlag sreg .I ∧ getFlag t .T = getFlag sreg .T ∧
    getFlag t .H = (!bit a 3 && bit b 3 || bit b 3 && bit r 3 || bit r 3 && !bit a 3) ∧
    getFlag t .V = (bit a 7 && !bit b 7 && !bit r 7 || !bit a 7 && bit b 7 && bit r 7) ∧
    getFlag t .C = (!bit a 7 && bit b 7 || bit b 7 && bit r 7 || bit r 7 && !bit a 7)

/-- R143: `LogicFlags` writes V, N, Z and S and leaves I, T, H and C. -/
def Obligations.LogicFlagsFollowTheirFormulas : Prop :=
  ∀ sreg r : Byte,
    let t := logicSreg sreg r
    getFlag t .V = false ∧ getFlag t .N = r.getLsbD 7 ∧ getFlag t .Z = (r == 0x00) ∧ getFlag t .S = r.getLsbD 7 ∧
    ∀ f ∈ [Flag.I, .T, .H, .C], getFlag t f = getFlag sreg f

/-! ### Arithmetic and logic -/

/-- R144, R145, R321, R323: ADD, ADC, LSL and ROL complete in every state with the sum, its carries and signed overflow,
and change nothing else. The pc's wrap is the spec's decision D6 (log 24). -/
def Obligations.AdditionResult : Prop :=
  ∀ (s : State) (d r : Reg),
    ∀ p ∈ [(Instr.add d r, s.reg r, false), (Instr.adc d r, s.reg r, s.flag .C), (Instr.lsl d, s.reg d, false),
        (Instr.rol d, s.reg d, s.flag .C)],
      ∃ t, exec p.1 s = .next t ∧
        (t.reg d).toNat = ((s.reg d).toNat + p.2.1.toNat + p.2.2.toNat) % 256 ∧
        AddFlagsOutcome (s.reg d) p.2.1 p.2.2 t ∧
        Frame (.reg d :: flagsHSVNZC) s t ∧ PcAt s t 1

/-- R147 to R150, R205 to R207: SUB, SUBI, SBC and SBCI complete in every state with the difference and its flags; CP, CPC
and CPI with the same flags and no register written. SBC, SBCI and CPC keep Z over a zero result. The pc's wrap is the
spec's decision D6 (log 24). -/
def Obligations.SubtractionResult : Prop :=
  ∀ (s : State) (d r : Reg) (K : Byte),
    (∀ p ∈ [(Instr.sub d r, s.reg r, false, true), (Instr.subi d K, K, false, true),
        (Instr.sbc d r, s.reg r, s.flag .C, s.flag .Z), (Instr.sbci d K, K, s.flag .C, s.flag .Z)],
      ∃ t, exec p.1 s = .next t ∧
        ((t.reg d).toNat : Int) = ((s.reg d).toNat - p.2.1.toNat - p.2.2.1.toNat) % 256 ∧
        SubFlagsOutcome (s.reg d) p.2.1 p.2.2.1 p.2.2.2 t ∧
        Frame (.reg d :: flagsHSVNZC) s t ∧ PcAt s t 1) ∧
    ∀ p ∈ [(Instr.cp d r, s.reg r, false, true), (Instr.cpi d K, K, false, true),
        (Instr.cpc d r, s.reg r, s.flag .C, s.flag .Z)],
      ∃ t, exec p.1 s = .next t ∧ SubFlagsOutcome (s.reg d) p.2.1 p.2.2.1 p.2.2.2 t ∧
        Frame flagsHSVNZC s t ∧ PcAt s t 1

/-- R152 to R157, R159, R160, R163 to R165: the logic instructions complete in every state, bit by bit as named; COM also
sets C, TST writes no register, SER writes no flag. The pc's wrap is the spec's decision D6 (log 24). -/
def Obligations.LogicResult : Prop :=
  ∀ (s : State) (d r : Reg) (K : Byte),
    (∀ p ∈ [(Instr.and d r, fun n => (s.reg d).getLsbD n && (s.reg r).getLsbD n),
        (Instr.andi d K, fun n => (s.reg d).getLsbD n && K.getLsbD n),
        (Instr.or d r, fun n => (s.reg d).getLsbD n || (s.reg r).getLsbD n),
        (Instr.ori d K, fun n => (s.reg d).getLsbD n || K.getLsbD n),
        (Instr.eor d r, fun n => (s.reg d).getLsbD n ^^ (s.reg r).getLsbD n),
        (Instr.sbr d K, fun n => (s.reg d).getLsbD n || K.getLsbD n),
        (Instr.cbr d K, fun n => (s.reg d).getLsbD n && !K.getLsbD n),
        (Instr.clr d, fun _ => false)],
      ∃ t, exec p.1 s = .next t ∧ (∀ n < 8, (t.reg d).getLsbD n = p.2 n) ∧ LogicFlagsOutcome (t.reg d) t ∧
        Frame (.reg d :: flagsSVNZ) s t ∧ PcAt s t 1) ∧
    (∃ t, exec (.com d) s = .next t ∧ (∀ n < 8, (t.reg d).getLsbD n = !(s.reg d).getLsbD n) ∧
      LogicFlagsOutcome (t.reg d) t ∧ t.flag .C = true ∧ Frame (.reg d :: flagsSVNZC) s t ∧ PcAt s t 1) ∧
    (∃ t, exec (.tst d) s = .next t ∧ LogicFlagsOutcome (s.reg d) t ∧ Frame flagsSVNZ s t ∧ PcAt s t 1) ∧
    ∃ t, exec (.ser d) s = .next t ∧ t.reg d = 0xFF ∧ Frame [.reg d] s t ∧ PcAt s t 1

/-- R158, R161, R162: NEG, INC and DEC complete in every state; V marks the one result whose signed value is out of range,
INC and DEC leave C and H. The pc's wrap is the spec's decision D6 (log 24). -/
def Obligations.NegateIncrementDecrementResult : Prop :=
  ∀ (s : State) (d : Reg),
    (∃ t, exec (.neg d) s = .next t ∧ ((t.reg d).toNat : Int) = -((s.reg d).toNat : Int) % 256 ∧
      SubFlagsOutcome 0 (s.reg d) false true t ∧ Frame (.reg d :: flagsHSVNZC) s t ∧ PcAt s t 1) ∧
    (∃ t, exec (.inc d) s = .next t ∧ (t.reg d).toNat = ((s.reg d).toNat + 1) % 256 ∧
      (t.flag .V = true ↔ (s.reg d).toNat = 0x7F) ∧ (t.flag .N = true ↔ 128 ≤ (t.reg d).toNat) ∧
      (t.flag .Z = true ↔ (s.reg d).toNat = 0xFF) ∧ SignIsNXorV t ∧ Frame (.reg d :: flagsSVNZ) s t ∧ PcAt s t 1) ∧
    ∃ t, exec (.dec d) s = .next t ∧ (t.reg d).toNat = ((s.reg d).toNat + 255) % 256 ∧
      (t.flag .V = true ↔ (s.reg d).toNat = 0x80) ∧ (t.flag .N = true ↔ 128 ≤ (t.reg d).toNat) ∧
      (t.flag .Z = true ↔ (s.reg d).toNat = 1) ∧ SignIsNXorV t ∧ Frame (.reg d :: flagsSVNZ) s t ∧ PcAt s t 1

/-- R146, R151: ADIW and SBIW complete in every state with the 16-bit sum or difference of the pair; C is its carry or
borrow, V its signed overflow, and H is left. The pc's wrap is the spec's decision D6 (log 24). -/
def Obligations.WordImmediateResult : Prop :=
  ∀ (s : State) (d : Reg) (K : BitVec 6),
    let a := (s.reg (d + 1)).toNat * 256 + (s.reg d).toNat
    (∃ t, exec (.adiw d K) s = .next t ∧
      (t.reg (d + 1)).toNat * 256 + (t.reg d).toNat = (a + K.toNat) % 65536 ∧
      (t.flag .C = true ↔ 65536 ≤ a + K.toNat) ∧ (t.flag .V = true ↔ a < 32768 ∧ 32768 ≤ a + K.toNat) ∧
      (t.flag .N = true ↔ 32768 ≤ (a + K.toNat) % 65536) ∧ (t.flag .Z = true ↔ (a + K.toNat) % 65536 = 0) ∧
      SignIsNXorV t ∧ Frame (.reg d :: .reg (d + 1) :: flagsSVNZC) s t ∧ PcAt s t 1) ∧
    ∃ t, exec (.sbiw d K) s = .next t ∧
      (t.reg (d + 1)).toNat * 256 + (t.reg d).toNat = (a + 65536 - K.toNat) % 65536 ∧
      (t.flag .C = true ↔ a < K.toNat) ∧ (t.flag .V = true ↔ 32768 ≤ a ∧ a < 32768 + K.toNat) ∧
      (t.flag .N = true ↔ 32768 ≤ (a + 65536 - K.toNat) % 65536) ∧
      (t.flag .Z = true ↔ a = K.toNat) ∧
      SignIsNXorV t ∧ Frame (.reg d :: .reg (d + 1) :: flagsSVNZC) s t ∧ PcAt s t 1

/-- R145, R149: ADD then ADC add 16-bit numbers, SUB then SBC subtract them, and after SBC the flag Z stands for all 16
bits. The premises say that no register of the second half is written by the first. -/
def Obligations.TwoByteArithmetic : Prop :=
  ∀ (s : State) (d0 d1 r0 r1 : Reg), d1 ≠ d0 → r1 ≠ d0 →
    let a := (s.reg d1).toNat * 256 + (s.reg d0).toNat
    let b := (s.reg r1).toNat * 256 + (s.reg r0).toNat
    (∃ u t, exec (.add d0 r0) s = .next u ∧ exec (.adc d1 r1) u = .next t ∧
      (t.reg d1).toNat * 256 + (t.reg d0).toNat = (a + b) % 65536 ∧ (t.flag .C = true ↔ 65536 ≤ a + b)) ∧
    ∃ u t, exec (.sub d0 r0) s = .next u ∧ exec (.sbc d1 r1) u = .next t ∧
      ((t.reg d1).toNat * 256 + (t.reg d0).toNat : Int) = ((a : Int) - b) % 65536 ∧
      (t.flag .C = true ↔ a < b) ∧ (t.flag .Z = true ↔ a = b)

/-! ### Multiplies and DES -/

/-- R180 to R186: the six multiplies complete in every state: R1:R0 is the product of the operands as each reads them,
shifted left by one for the fractional three; C is bit 15 of the product, Z says R1:R0 is 0, and nothing else changes. The
pc's wrap is the spec's decision D6 (log 24). -/
def Obligations.MultiplyResult : Prop :=
  ∀ (s : State) (d r : Reg),
    let u (i : Reg) : Int := (s.reg i).toNat
    let g (i : Reg) : Int := if 128 ≤ (s.reg i).toNat then (s.reg i).toNat - 256 else (s.reg i).toNat
    ∀ p ∈ [(Instr.mul d r, u d * u r, false), (Instr.muls d r, g d * g r, false), (Instr.mulsu d r, g d * u r, false),
        (Instr.fmul d r, u d * u r, true), (Instr.fmuls d r, g d * g r, true), (Instr.fmulsu d r, g d * u r, true)],
      ∃ t, exec p.1 s = .next t ∧
        (((t.reg 1).toNat * 256 + (t.reg 0).toNat : Nat) : Int) = (if p.2.2 then 2 * p.2.1 else p.2.1) % 65536 ∧
        (t.flag .C = true ↔ 32768 ≤ p.2.1 % 65536) ∧
        (t.flag .Z = true ↔ p.2.1 = 0) ∧
        Frame [.reg 0, .reg 1, .flag .C, .flag .Z] s t ∧ PcAt s t 1

/-- R187, R371: where `DesRound` is supplied, DES K puts `DesRound` of R0 to R15, K and H into R0 to R15 and changes no
flag, and DES 0 to DES 15 in that order leave in R7:R0 the FIPS 46 encryption (H = 0) or decryption (H = 1) of R7:R0 under
the key R15:R8; where it is not supplied, DES is refused. `DesRound` and its refusal are the spec's decision D20 (log 18),
that no flag is written is R187's own inference (log 43), the cipher's tables are the standard's, which the spec names and
does not print (log 45), the pc's wrap is D6 (log 24). -/
def Obligations.DesAppliesTheRound : Prop :=
  ∀ (s : State) (K : BitVec 4),
    (s.cfg.hasDesRound = true → ∃ (t : State) (block : BitVec 128), exec (.des K) s = .next t ∧
      (∀ i : Reg, i.val < 16 → block.extractLsb' (8 * i.val) 8 = s.reg i) ∧
      (∀ i : Reg, i.val < 16 → t.reg i = (Config.desRound.round block K (s.flag .H)).extractLsb' (8 * i.val) 8) ∧
      Frame lowRegs s t ∧ PcAt s t 1) ∧
    (s.cfg.hasDesRound = true → ∃ t : State,
      execAll ((List.range 16).map fun k => .des (BitVec.ofNat 4 k)) s = .next t ∧
      regs8 t 0 = Fips46.crypt (s.flag .H) (regs8 s 8) (regs8 s 0) ∧ Frame lowRegs s t ∧ PcAt s t 16) ∧
    (s.cfg.hasDesRound = false → exec (.des K) s = .refused .desNotModelled)

/-! ### Bits -/

/-- R320, R322, R324 to R326, R329, R330: LSR, ROR and ASR shift right with 0, C or the old bit 7 entering; SWAP exchanges
the nibbles and touches no flag; BST copies one bit of a register to T, BLD copies T to one bit of a register and leaves
the other seven. All complete in every state. The pc's wrap is the spec's decision D6 (log 24). -/
def Obligations.ShiftAndBitResult : Prop :=
  ∀ (s : State) (d : Reg) (b : Fin 8),
    (∀ p ∈ [(Instr.lsr d, false), (Instr.ror d, s.flag .C), (Instr.asr d, (s.reg d).getLsbD 7)],
      ∃ t, exec p.1 s = .next t ∧
        (t.reg d).toNat = (s.reg d).toNat / 2 + 128 * p.2.toNat ∧ ShiftRightOutcome (s.reg d) (t.reg d) t ∧
        Frame (.reg d :: flagsSVNZC) s t ∧ PcAt s t 1) ∧
    (∃ t, exec (.swap d) s = .next t ∧
      (t.reg d).toNat = (s.reg d).toNat % 16 * 16 + (s.reg d).toNat / 16 ∧ Frame [.reg d] s t ∧ PcAt s t 1) ∧
    (∃ t, exec (.bst d b) s = .next t ∧ t.flag .T = (s.reg d).getLsbD b ∧ Frame [.flag .T] s t ∧ PcAt s t 1) ∧
    ∃ t, exec (.bld d b) s = .next t ∧
      (∀ n < 8, (t.reg d).getLsbD n = if n = b then s.flag .T else (s.reg d).getLsbD n) ∧
      Frame [.reg d] s t ∧ PcAt s t 1

/-- R331 to R348: BSET and BCLR and their sixteen aliases set or clear the one flag they name and leave the other seven, S
included; BSET 7 and SEI also set `irq_inhibit` (R42). The pc's wrap is the spec's decision D6 (log 24). -/
def Obligations.FlagSetAndClear : Prop :=
  ∀ s : State,
    (∀ p ∈ [(Instr.bset 0, Flag.C, true), (.bset 1, .Z, true), (.bset 2, .N, true), (.bset 3, .V, true),
        (.bset 4, .S, true), (.bset 5, .H, true), (.bset 6, .T, true), (.bclr 0, .C, false), (.bclr 1, .Z, false),
        (.bclr 2, .N, false), (.bclr 3, .V, false), (.bclr 4, .S, false), (.bclr 5, .H, false), (.bclr 6, .T, false),
        (.bclr 7, .I, false), (.sec, .C, true), (.clc, .C, false), (.sez, .Z, true), (.clz, .Z, false),
        (.sen, .N, true), (.cln, .N, false), (.sev, .V, true), (.clv, .V, false), (.ses, .S, true), (.cls, .S, false),
        (.seh, .H, true), (.clh, .H, false), (.set, .T, true), (.clt, .T, false), (.cli, .I, false)],
      ∃ t, exec p.1 s = .next t ∧ t.flag p.2.1 = p.2.2 ∧ Frame [.flag p.2.1] s t ∧ PcAt s t 1) ∧
    ∀ i ∈ [Instr.bset 7, .sei],
      ∃ t, exec i s = .next t ∧ t.flag .I = true ∧ t.irqInhibit = true ∧ Frame [.flag .I, .inhibit] s t ∧ PcAt s t 1

/-! ### Branches, skips, jumps -/

/-- R192, R212 to R231: a conditional branch goes to pc + k + 1 where its flag is as it names, else to pc + 1, modulo the
width of PC sums, and changes nothing else; all twenty complete in every state. The pc's wrap is the spec's decision D6
(log 24). -/
def Obligations.ConditionalBranchTarget : Prop :=
  ∀ (s : State) (b : Fin 8) (k : BitVec 7),
    ∀ p ∈ [(Instr.brbs b k, s.sreg.getLsbD b), (.brbc b k, !s.sreg.getLsbD b), (.breq k, s.flag .Z),
        (.brne k, !s.flag .Z), (.brcs k, s.flag .C), (.brcc k, !s.flag .C), (.brsh k, !s.flag .C), (.brlo k, s.flag .C),
        (.brmi k, s.flag .N), (.brpl k, !s.flag .N), (.brge k, !s.flag .S), (.brlt k, s.flag .S), (.brhs k, s.flag .H),
        (.brhc k, !s.flag .H), (.brts k, s.flag .T), (.brtc k, !s.flag .T), (.brvs k, s.flag .V), (.brvc k, !s.flag .V),
        (.brie k, s.flag .I), (.brid k, !s.flag .I)],
      ∃ t, exec p.1 s = .next t ∧ Frame [] s t ∧ PcAt s t (if p.2 then k.toInt + 1 else 1)

/-- R232: after CP Rd,Rr the branches compare as their names say: BREQ and BRNE on equality, BRLO and BRSH as unsigned
numbers, BRLT and BRGE as signed numbers. The pc's wrap is the spec's decision D6 (log 24). -/
def Obligations.CompareThenBranch : Prop :=
  ∀ (s u : State) (d r : Reg) (k : BitVec 7), exec (.cp d r) s = .next u →
    ∀ p ∈ [(Instr.breq k, decide (s.reg d = s.reg r)), (.brne k, decide (s.reg d ≠ s.reg r)),
        (.brlo k, decide ((s.reg d).toNat < (s.reg r).toNat)), (.brsh k, decide ((s.reg r).toNat ≤ (s.reg d).toNat)),
        (.brlt k, decide ((s.reg d).toInt < (s.reg r).toInt)), (.brge k, decide ((s.reg r).toInt ≤ (s.reg d).toInt))],
      ∃ t, exec p.1 u = .next t ∧ Frame [] u t ∧ PcAt u t (if p.2 then k.toInt + 1 else 1)

/-- R191, R204, R208 to R211: CPSE, SBRC, SBRS, SBIC and SBIS go to pc + 1, or past the next instruction by its length;
the word after the skip is looked at only when the skip is taken, and above FLASHEND that is a fault; no more of it is
read and nothing else changes, but that SBIC and SBIS read their I/O location once. The length by bits alone, and one word
for every skip on AVRrc, are the spec's decision D17 (log 29), the pc's wrap D6 (log 24), the one draw of a device D19
(log 9). -/
def Obligations.SkipTarget : Prop :=
  ∀ (s : State) (d r : Reg) (A : BitVec 5) (b : Fin 8),
    let skips (i : Instr) (cond : Bool) (effect : State → Prop) : Prop :=
      (cond = false → ∃ t, exec i s = .next t ∧ effect t ∧ PcAt s t 1) ∧
      (cond = true → s.pc.toNat + 1 ≤ s.cfg.flashEnd → ∃ t, exec i s = .next t ∧ effect t ∧
        PcAt s t (if isTwoWord (s.progWord (s.pc.toNat + 1)) = true ∧ s.cfg.core ≠ .AVRrc then 3 else 2)) ∧
      (cond = true → s.cfg.flashEnd < s.pc.toNat + 1 → exec i s = .fault (.fetchOutOfRange (s.pc.toNat + 1)))
    skips (.cpse d r) (decide (s.reg d = s.reg r)) (Frame [] s) ∧
    skips (.sbrc r b) (!(s.reg r).getLsbD b) (Frame [] s) ∧
    skips (.sbrs r b) ((s.reg r).getLsbD b) (Frame [] s) ∧
    skips (.sbic A b) (!(ioByte s (A.setWidth 6)).getLsbD b) (IoReadEffect (A.setWidth 6) s) ∧
    skips (.sbis A b) ((ioByte s (A.setWidth 6)).getLsbD b) (IoReadEffect (A.setWidth 6) s)

/-- R32, R33, R193 to R196: RJMP goes to pc + k + 1, IJMP to Z with PC(21:16) = 0, EIJMP to EIND[5:0]:Z and JMP to k, the
last two truncated to PC_BITS; all complete in every state and change nothing but the pc. The truncations are the spec's
decisions D6, D24 and D25 (log 24, log 26, log 27). -/
def Obligations.JumpTarget : Prop :=
  ∀ s : State,
    let z := (s.reg 31).toNat * 256 + (s.reg 30).toNat
    let eind := if s.cfg.hasEind then s.eind.toNat % 64 else 0
    (∀ k : BitVec 12, ∃ t, exec (.rjmp k) s = .next t ∧ Frame [] s t ∧ PcAt s t (k.toInt + 1)) ∧
    (∃ t, exec .ijmp s = .next t ∧ Frame [] s t ∧ t.pc.toNat = z) ∧
    (∃ t, exec .eijmp s = .next t ∧ Frame [] s t ∧ t.pc.toNat = (eind * 65536 + z) % 2 ^ s.cfg.pcBits.width) ∧
    ∀ k : BitVec 22, ∃ t, exec (.jmp k) s = .next t ∧ Frame [] s t ∧ t.pc.toNat = k.toNat % 2 ^ s.cfg.pcBits.width

/-! ### Calls and returns -/

/-- R76, R78, R197 to R201: where the stack bytes can be stored, RCALL, ICALL, EICALL and CALL push the bytes of their
return address, low byte first, each through `MemWrite` at SP with SP lowered after it, and then go to the target
computed from the registers of before; nothing else changes. The byte order is the spec's decision D3 (log 8), SP's
wrap D21 (log 25), the targets' truncation D6, D24 and D25 (log 24, log 26, log 27), a stack byte on a device D19 (log
9), one on SREG D7 (log 12); that SP is left lowered where a byte lands on its own location is R64's own inference
(log 32). -/
def Obligations.CallEffect : Prop :=
  ∀ s : State, (∀ j < retBytes s.cfg, Writable s.cfg (pushSlot s j)) →
    let z := (s.reg 31).toNat * 256 + (s.reg 30).toNat
    let eind := if s.cfg.hasEind then s.eind.toNat % 64 else 0
    let top := 2 ^ s.cfg.pcBits.width
    let wrap := 2 ^ wrapWidth s.cfg
    ∀ (k12 : BitVec 12) (k22 : BitVec 22),
    ∀ p ∈ [(Instr.rcall k12, 1, ((s.pc.toNat : Int) + k12.toInt + 1) % (wrap : Nat)), (.icall, 1, (z : Int)),
        (.eicall, 1, (((eind * 65536 + z) % top : Nat) : Int)), (.call k22, 2, ((k22.toNat % top : Nat) : Int))],
      ∃ ret u t, exec p.1 s = .next t ∧ ret.toNat = (s.pc.toNat + p.2.1) % wrap ∧
        PushedAll (returnBytes s.cfg ret) s u ∧ Frame [] u t ∧ (t.pc.toNat : Int) = p.2.2

/-- R77, R79, R202: where the stack bytes can be read, RET pops RET_BYTES bytes, each through `MemRead` with SP raised
before it, the highest byte first, and the pc is their number modulo 2^PC_BITS; nothing else changes. The byte order
is the spec's decision D3 (log 8), SP's wrap D21 (log 25), a stack byte on a device D19 (log 9); that an unwritten
SRAM byte cannot be read is log 6. -/
def Obligations.ReturnEffect : Prop :=
  ∀ s : State, (∀ j < retBytes s.cfg, Readable s (popSlot s j)) →
    ∃ bytes u t, exec .ret s = .next t ∧ bytes.length = retBytes s.cfg ∧ PoppedAll bytes s u ∧ Frame [] u t ∧
      t.pc.toNat = bytesValue bytes % 2 ^ s.cfg.pcBits.width

/-- R42, R203, R382: RETI pops the pc as RET does, sets `irq_inhibit`, and sets I; on AVRxm I is left and the platform is
told instead. Beside what `ReturnEffect` rests on, `irq_inhibit` and `IrqReturn` are the spec's decision D7 (log 12, log
13). -/
def Obligations.InterruptReturnEffect : Prop :=
  ∀ s : State, (∀ j < retBytes s.cfg, Readable s (popSlot s j)) →
    ∃ bytes u t, exec .reti s = .next t ∧ bytes.length = retBytes s.cfg ∧ PoppedAll bytes s u ∧
      t.pc.toNat = bytesValue bytes % 2 ^ s.cfg.pcBits.width ∧ t.irqInhibit = true ∧
      (if s.cfg.core = .AVRxm then t.events = .irqReturn :: u.events ∧ Frame [.inhibit, .events] u t
        else t.flag .I = true ∧ Frame [.inhibit, .flag .I] u t)

/-- R78, R79: on a stack in SRAM a call followed at once by RET comes back to the instruction after the call, with SP and
every register as before. The premise on SP is part of the invariant. The byte order is the spec's decision D3 (log 8),
the wraps D6 and D21 (log 24, log 25). -/
def Obligations.CallThenReturn : Prop :=
  ∀ (s : State) (k : BitVec 22), s.sp.toNat < 2 ^ s.cfg.spBits.width →
    (∀ j < retBytes s.cfg, classify s.cfg (pushSlot s j) = .sram (pushSlot s j)) →
    ∃ u t, exec (.call k) s = .next u ∧ exec .ret u = .next t ∧ PcAt s t 2 ∧ t.sp = s.sp ∧
      u.sram (pushSlot s 0) = some (BitVec.ofNat 8 t.pc.toNat) ∧
      u.sram (pushSlot s 1) = some (BitVec.ofNat 8 (t.pc.toNat / 256)) ∧
      Frame ((List.range (retBytes s.cfg)).map fun j => .sram (pushSlot s j)) s t

/-! ### Data transfer -/

/-- R251 to R253: MOV, MOVW and LDI copy a register, a pair or a constant, write no flag and complete in every state. The
pc's wrap is the spec's decision D6 (log 24). -/
def Obligations.MoveResult : Prop :=
  ∀ (s : State) (d r : Reg) (K : Byte),
    (∃ t, exec (.mov d r) s = .next t ∧ t.reg d = s.reg r ∧ Frame [.reg d] s t ∧ PcAt s t 1) ∧
    (∃ t, exec (.movw d r) s = .next t ∧ t.reg d = s.reg r ∧ t.reg (d + 1) = s.reg (r + 1) ∧
      Frame [.reg d, .reg (d + 1)] s t ∧ PcAt s t 1) ∧
    ∃ t, exec (.ldi d K) s = .next t ∧ t.reg d = K ∧ Frame [.reg d] s t ∧ PcAt s t 1

/-- R62, R254, R255, R258, R261, R264, R265, R268: a load that leaves its pointer puts the byte at its address into its
register, wherever DATA_MAP puts the address, reading a device once, and changes nothing else. The classes of addresses
are the spec's decision D4, the device's free byte D19 (log 9), the wrap of a displacement D27 (log 31), the 16-bit
address D15 (log 28), the pc's wrap D6 (log 24); unwritten SRAM is log 6. -/
def Obligations.PlainLoadResult : Prop :=
  ∀ (s : State) (d : Reg) (k : BitVec 16) (k7 : BitVec 7) (q : BitVec 6),
    ∀ p ∈ [(Instr.lds d k, directAddr k s, 2), (.lds16 d k7, (addr16 s.cfg k7).setWidth 24, 1),
        (.ldX d, ptrGet .X s, 1), (.ldY d, ptrGet .Y s, 1), (.ldZ d, ptrGet .Z s, 1),
        (.lddY d q, ptrAdd .Y (q.setWidth 24) s, 1), (.lddZ d q, ptrAdd .Z (q.setWidth 24) s, 1)],
      Readable s p.2.1.toNat →
      ∃ u t, exec p.1 s = .next t ∧ ReadEffect p.2.1.toNat s u ∧ t.reg d = dataByte s p.2.1.toNat ∧
        Frame [.reg d] u t ∧ PcAt s t (p.2.2 : Nat)

/-- R256, R257, R259, R260, R262, R263, R266, R267: a post-increment load reads at the old pointer and then moves the
pointer up by one; a pre-decrement load moves it down by one and then reads there; the destination is no half of the
pointer. Only the register, the pointer and a device read change. The wrap of the pointer is the spec's decision D27 (log
31), the pc's D6 (log 24); unwritten SRAM is log 6. -/
def Obligations.MovingLoadResult : Prop :=
  ∀ (s : State) (d : Reg) (p : Ptr), d ≠ ptrLow p → d ≠ ptrHigh p →
    let inc : Instr := match p with
      | .X => .ldXInc d
      | .Y => .ldYInc d
      | .Z => .ldZInc d
    let dec : Instr := match p with
      | .X => .ldXDec d
      | .Y => .ldYDec d
      | .Z => .ldZDec d
    (Readable s (ptrGet p s).toNat →
      ∃ u v t, exec inc s = .next t ∧ ReadEffect (ptrGet p s).toNat s u ∧ v.reg d = dataByte s (ptrGet p s).toNat ∧
        Frame [.reg d] u v ∧ PtrMoved p (ptrAdd p 1 s) v t ∧ PcAt s t 1) ∧
    (Readable s (ptrAdd p (-1) s).toNat →
      ∃ u v t, exec dec s = .next t ∧ PtrMoved p (ptrAdd p (-1) s) s u ∧ ReadEffect (ptrAdd p (-1) s).toNat u v ∧
        t.reg d = dataByte u (ptrAdd p (-1) s).toNat ∧ Frame [.reg d] v t ∧ PcAt s t 1)

/-- R63, R64, R269, R270, R271, R274, R277, R278, R281: a store that leaves its pointer stores the register at its
address, wherever DATA_MAP puts it; in SRAM every byte at another address reads as before, and nothing else changes.
The classes of addresses are the spec's decision D4 (log 4), the record of a device write D19 (log 9), the wrap of a
displacement D27 (log 31), the 16-bit address D15 (log 28), the delay that a store on SREG sets D7 (log 12), the pc's
wrap D6 (log 24). -/
def Obligations.PlainStoreResult : Prop :=
  ∀ (s : State) (r : Reg) (k : BitVec 16) (k7 : BitVec 7) (q : BitVec 6),
    ∀ p ∈ [(Instr.sts k r, directAddr k s, 2), (.sts16 k7 r, (addr16 s.cfg k7).setWidth 24, 1),
        (.stX r, ptrGet .X s, 1), (.stY r, ptrGet .Y s, 1), (.stZ r, ptrGet .Z s, 1),
        (.stdY q r, ptrAdd .Y (q.setWidth 24) s, 1), (.stdZ q r, ptrAdd .Z (q.setWidth 24) s, 1)],
      Writable s.cfg p.2.1.toNat →
      ∃ t, exec p.1 s = .next t ∧ Stored p.2.1.toNat (s.reg r) s t ∧ PcAt s t (p.2.2 : Nat)

/-- R64, R256, R257, R272, R273, R275, R276, R279, R280: a post-increment store stores at the old pointer and then moves
the pointer; a pre-decrement store moves it first; the source is no half of the pointer and its value is the one of
before. That the later write wins where the two meet is R64's own inference (log 32). The wrap of the pointer is the spec's
decision D27 (log 31), the classes of addresses D4 (log 4), a device write D19 (log 9), the delay that a store on SREG
sets D7 (log 12), the pc's wrap D6 (log 24). -/
def Obligations.MovingStoreResult : Prop :=
  ∀ (s : State) (r : Reg) (p : Ptr), r ≠ ptrLow p → r ≠ ptrHigh p →
    let inc : Instr := match p with
      | .X => .stXInc r
      | .Y => .stYInc r
      | .Z => .stZInc r
    let dec : Instr := match p with
      | .X => .stXDec r
      | .Y => .stYDec r
      | .Z => .stZDec r
    (Writable s.cfg (ptrGet p s).toNat →
      ∃ u t, exec inc s = .next t ∧ Stored (ptrGet p s).toNat (s.reg r) s u ∧ PtrMoved p (ptrAdd p 1 s) u t ∧
        PcAt s t 1) ∧
    (Writable s.cfg (ptrAdd p (-1) s).toNat →
      ∃ u t, exec dec s = .next t ∧ PtrMoved p (ptrAdd p (-1) s) s u ∧
        Stored (ptrAdd p (-1) s).toNat (s.reg r) u t ∧ PcAt s t 1)

/-- R114, R257, R376: the 28 combinations the manual calls undefined fault, in every state and every pointer mode. The
fault is the spec's decision D10 (log 21). -/
def Obligations.UndefinedCombinationsFault : Prop :=
  ∀ s : State,
    (∀ d ∈ [(26 : Reg), 27], ∀ i ∈ [Instr.ldXInc d, .ldXDec d, .stXInc d, .stXDec d],
      exec i s = .fault .undefinedCombination) ∧
    (∀ d ∈ [(28 : Reg), 29], ∀ i ∈ [Instr.ldYInc d, .ldYDec d, .stYInc d, .stYDec d],
      exec i s = .fault .undefinedCombination) ∧
    ∀ d ∈ [(30 : Reg), 31], ∀ i ∈ [Instr.ldZInc d, .ldZDec d, .stZInc d, .stZDec d, .lpmInc d, .elpmInc d],
      exec i s = .fault .undefinedCombination

/-- R85, R256: the address a pointer names and the sum of a pointer and a number, as numbers, in the three modes: 8 bits
of the low register, 16 bits of the pair, or 24 bits with the RAMP register, each modulo 2^W (with the override of spec/93
row 24 for Z). R38, R254, R269: the address of the 32-bit LDS and STS is RAMPD:k, or k where there is no RAMPD. The wrap
is the spec's decision D27, the override for Z a parameter of spec/93 (log 31). -/
def Obligations.PointerModes : Prop :=
  ∀ (s : State) (p : Ptr) (n : Addr24) (k : BitVec 16),
    let lo := (s.reg (ptrLow p)).toNat
    let hi := (s.reg (ptrHigh p)).toNat
    let ramp := (s.ramp p).toNat
    (s.cfg.dataClass = .small → ptrWidth s.cfg p = 8 ∧ (ptrGet p s).toNat = lo) ∧
    let override := p = .Z ∧ s.cfg.zPointerNormal = true
    (s.cfg.dataClass ≠ .small → hasRamp s.cfg p = false ∨ override →
      ptrWidth s.cfg p = 16 ∧ (ptrGet p s).toNat = hi * 256 + lo) ∧
    (s.cfg.dataClass ≠ .small → hasRamp s.cfg p = true → ¬ override →
      ptrWidth s.cfg p = 24 ∧ (ptrGet p s).toNat = ramp * 65536 + hi * 256 + lo) ∧
    (ptrAdd p n s).toNat = ((ptrGet p s).toNat + n.toNat) % 2 ^ ptrWidth s.cfg p ∧
    (directAddr k s).toNat = (if s.cfg.hasRampD then s.rampD.toNat * 65536 else 0) + k.toNat

/-- R112: the 16-bit LDS and STS reach exactly the data addresses 0x40 to 0xBF, and the rule's eight ranges of k go where
it says (with LDS16_ALT false). Which bit is complemented is the spec's decision D15 (log 28). -/
def Obligations.ShortDirectAddressRange : Prop :=
  (∀ (c : Config) (k : BitVec 7), 0x40 ≤ (addr16 c k).toNat ∧ (addr16 c k).toNat ≤ 0xBF) ∧
  (∀ (c : Config) (a : Nat), 0x40 ≤ a → a ≤ 0xBF → ∃ k : BitVec 7, (addr16 c k).toNat = a) ∧
  ∀ (c : Config) (k : BitVec 7), c.lds16Alt = false →
    (addr16 c k).toNat = [0x80, 0x40, 0x90, 0x50, 0xA0, 0x60, 0xB0, 0x70].getD (k.toNat / 16) 0 + k.toNat % 16

/-- R67, R282 to R287: LPM reads the program byte at the 16-bit Z, ELPM the one at RAMPZ:Z; LPM Z+ increments the 16-bit
Z, ELPM Z+ all of RAMPZ:Z; a byte above FLASHEND faults. The Z+ forms are stated for a destination that is no half of Z
(`UndefinedCombinationsFault` has the others). The fault is the spec's decision D18 (log 23), the full width of RAMPZ D24
(log 26), the pc's wrap D6 (log 24). -/
def Obligations.ProgramByteLoadResult : Prop :=
  ∀ (s : State) (d : Reg),
    let z := (s.reg 31).toNat * 256 + (s.reg 30).toNat
    let zz := (if s.cfg.hasRampZ then s.rampZ.toNat * 65536 else 0) + z
    (∀ p ∈ [(Instr.lpmR0, (0 : Reg), z), (.lpm d, d, z), (.elpmR0, 0, zz), (.elpm d, d, zz)],
      (p.2.2 / 2 ≤ s.cfg.flashEnd → ∃ t, exec p.1 s = .next t ∧ t.reg p.2.1 = s.progCell p.2.2 ∧
        Frame [.reg p.2.1] s t ∧ PcAt s t 1) ∧
      (s.cfg.flashEnd < p.2.2 / 2 → exec p.1 s = .fault (.unmappedAddress p.2.2))) ∧
    (d ≠ 30 → d ≠ 31 →
      (z / 2 ≤ s.cfg.flashEnd → ∃ t, exec (.lpmInc d) s = .next t ∧ t.reg d = s.progCell z ∧
        (t.reg 31).toNat * 256 + (t.reg 30).toNat = (z + 1) % 65536 ∧
        Frame [.reg d, .reg 30, .reg 31] s t ∧ PcAt s t 1) ∧
      (s.cfg.flashEnd < z / 2 → exec (.lpmInc d) s = .fault (.unmappedAddress z)) ∧
      (zz / 2 ≤ s.cfg.flashEnd → ∃ t, exec (.elpmInc d) s = .next t ∧ t.reg d = s.progCell zz ∧
        (t.reg 31).toNat * 256 + (t.reg 30).toNat = (zz + 1) % 65536 ∧
        (if s.cfg.hasRampZ then t.rampZ.toNat = (zz + 1) / 65536 % 256 else t.rampZ = s.rampZ) ∧
        Frame [.reg d, .reg 30, .reg 31, .ramp .Z] s t ∧ PcAt s t 1) ∧
      (s.cfg.flashEnd < zz / 2 → exec (.elpmInc d) s = .fault (.unmappedAddress zz)))

/-- R288 to R290, R371: where `SpmEffect` is supplied, SPM hands it RAMPZ:Z, R1:R0 and the platform's state (program
memory, page buffer, lock bits, and all that devices have been handed) and changes only program memory (in words up to
FLASHEND), the page buffer and the lock bits; SPM Z+ then adds 2 to the 16-bit Z. Where it is not supplied, both are
refused. What is stored is free. `SpmEffect` and its refusal are the spec's decision D11; what it may change, and
that it is visible from the next step on, is the model's form of it (log 19, log 44); that SPM Z+ leaves RAMPZ is R290's own
inference (log 20); the pc's wrap is D6 (log 24). -/
def Obligations.ProgramStoreEffect : Prop :=
  ∀ s : State,
    let zz : Addr24 := BitVec.ofNat 24
      ((if s.cfg.hasRampZ then s.rampZ.toNat * 65536 else 0) + (s.reg 31).toNat * 256 + (s.reg 30).toNat)
    let data : Word := BitVec.ofNat 16 ((s.reg 1).toNat * 256 + (s.reg 0).toNat)
    let outcome := Config.spmEffect zz data
      { cfg := s.cfg, pc := s.pc, prog := s.prog, buffer := s.spmBuffer, lockBitSet := s.lockBitSet,
        jtagenProgrammed := s.jtagenProgrammed, ocdenProgrammed := s.ocdenProgrammed, sleepEnabled := s.sleepEnabled,
        irqPending := s.irqPending, events := s.events, draws := s.draws }
    let kept (t : State) (but : List Part) : Prop :=
      ∀ p, (∀ b ≤ 2 * s.cfg.flashEnd + 1, p ≠ .prog b) → p ∉ [Part.spmBuffer, .lockBit, .events, .draws] → p ∉ but →
        p.same s t
    let handed (t : State) : Prop :=
      t.events = .spm zz data :: s.events ∧ t.draws = s.draws + 1 ∧
      t.prog = storeWords s.cfg.flashEnd s.prog outcome.words ∧ t.spmBuffer = outcome.buffer ∧
      t.lockBitSet = outcome.lockBitSet
    (s.cfg.hasSpmEffect = true →
      (∃ t, exec .spm s = .next t ∧ handed t ∧ kept t [] ∧ PcAt s t 1) ∧
      ∃ t, exec .spmInc s = .next t ∧ handed t ∧ kept t [.reg 30, .reg 31] ∧ PcAt s t 1 ∧
        (t.reg 31).toNat * 256 + (t.reg 30).toNat = ((s.reg 31).toNat * 256 + (s.reg 30).toNat + 2) % 65536) ∧
    (s.cfg.hasSpmEffect = false → exec .spm s = .refused .spmNotModelled ∧ exec .spmInc s = .refused .spmNotModelled)

/-- R27, R70, R71, R72, R291, R292: IN reads and OUT writes what stands at the I/O location: SREG, half of SP, a RAMP
register, RAMPD, EIND, or a device, which is read or written once; both complete in every state. Devices are the spec's
decision D19 (log 9), the I/O addresses D5 (log 4), the delay after OUT to SREG D7 (log 12), the pc's wrap D6 (log 24). -/
def Obligations.InOutResult : Prop :=
  ∀ (s : State) (d : Reg) (A : BitVec 6),
    (∃ u t, exec (.inIo d A) s = .next t ∧ IoReadEffect A s u ∧ t.reg d = ioByte s A ∧ Frame [.reg d] u t ∧ PcAt s t 1) ∧
    ∃ t, exec (.outIo A d) s = .next t ∧ IoStored A (s.reg d) s t ∧ PcAt s t 1

/-- R64: where DATA_MAP puts an I/O location at the address in X, LD Rd,X reads it exactly as IN does and ST X,Rr writes
it exactly as OUT does. The map is the spec's decision D4 (log 4). -/
def Obligations.DataSpaceReachesIo : Prop :=
  ∀ (s : State) (d : Reg) (A : BitVec 6), classify s.cfg (ptrGet .X s).toNat = .io A →
    exec (.ldX d) s = exec (.inIo d A) s ∧ exec (.stX d) s = exec (.outIo A d) s

/-- R76, R77, R293, R294: PUSH stores its register at SP and lowers SP; POP raises SP and reads at it into its
register; SP wraps modulo 2^SP_BITS, and nothing else changes. SP's wrap is the spec's decision D21 (log 25), the pc's
D6 (log 24), a byte on a device D19 (log 9), one pushed on SREG D7 (log 12); that PUSH leaves SP one lower also where
its byte lands on SP's own I/O location is R64's own inference (log 32); unwritten SRAM is log 6. -/
def Obligations.PushPopEffect : Prop :=
  ∀ (s : State) (r : Reg),
    (Writable s.cfg s.sp.toNat →
      ∃ t, exec (.push r) s = .next t ∧ Pushed (s.reg r) s t ∧ PcAt s t 1) ∧
    (Readable s (popSlot s 0) →
      ∃ v u t, exec (.pop r) s = .next t ∧ Popped v s u ∧ t.reg r = v ∧ Frame [.reg r] u t ∧ PcAt s t 1)

/-- R295 to R299, R376: XCH reads the byte at Z, then stores its register there, then gets the byte read, wherever
DATA_MAP puts the address. LAS, LAC and LAT set, clear or toggle the bits of the SRAM byte at Z that their register
has set, give the register the old byte, and leave every other byte; on an address that is not internal SRAM they
fault. Z is left but as the destination. The fault outside SRAM is the spec's decision D27 (log 21), a device at Z D19
(log 9), the delay that a store on SREG sets D7 (log 12), unwritten SRAM log 6, the pc's wrap D6 (log 24). -/
def Obligations.ReadModifyWriteResult : Prop :=
  ∀ (s : State) (d : Reg),
    let a := (ptrGet .Z s).toNat
    (Readable s a → Writable s.cfg a →
      ∃ u v t, exec (.xch d) s = .next t ∧ ReadEffect a s u ∧ Stored a (s.reg d) u v ∧
        t.reg d = dataByte s a ∧ Frame [.reg d] v t ∧ PcAt s t 1) ∧
    ∀ p ∈ [(Instr.las d, fun x y : Bool => x || y), (.lac d, fun x y => !x && y), (.lat d, fun x y => x ^^ y)],
      (∀ m, classify s.cfg a = .sram a → s.sram a = some m →
        ∃ (t : State) (w : Byte), exec p.1 s = .next t ∧ t.reg d = m ∧ t.sram a = some w ∧
          (∀ n < 8, w.getLsbD n = p.2 ((s.reg d).getLsbD n) (m.getLsbD n)) ∧
          Frame [.reg d, .sram a] s t ∧ PcAt s t 1) ∧
      (classify s.cfg a ≠ .sram a → exec p.1 s = .fault .undefinedCombination)

/-- R73, R327, R328: SBI and CBI read the I/O location, replace one bit and write the byte back; on a device for which
the platform supplies a single-bit operation they hand it that operation instead. Both complete in every state. Both
forms are the spec's decision D19 (log 10), the delay of a write that raises I in SREG is D7 (log 12), the pc's wrap
D6 (log 24). -/
def Obligations.IoBitWriteResult : Prop :=
  ∀ (s : State) (A5 : BitVec 5) (b : Fin 8),
    let A : BitVec 6 := A5.setWidth 6
    let old := ioByte s A
    ∀ p ∈ [(Instr.sbi A5 b, old ||| (1#8 <<< b.val), PlatformEvent.devSetBit (.io A) b),
        (.cbi A5 b, old &&& ~~~(1#8 <<< b.val), .devClearBit (.io A) b)],
      if s.cfg.devBitOps = true ∧ ioTarget s.cfg A = .device then
        ∃ t, exec p.1 s = .next t ∧ t.events = p.2.2 :: s.events ∧ Frame [.events] s t ∧ PcAt s t 1
      else ∃ u t, exec p.1 s = .next t ∧ IoReadEffect A s u ∧ IoStored A p.2.1 u t ∧ PcAt s t 1

/-- R360 to R363: NOP only moves the pc; WDR also restarts the watchdog; SLEEP puts a sleep-enabled machine to sleep and
is NOP on any other; BREAK stops a machine with no lock bit set and both fuses programmed and is NOP on any other. All
complete in every state. SLEEP, BREAK and WDR are the spec's decisions D12, D13 and D14 (log 15, log 16, log 17), the pc's
wrap D6 (log 24). -/
def Obligations.ControlResult : Prop :=
  ∀ s : State,
    let debug := s.lockBitSet = false ∧ s.jtagenProgrammed = true ∧ s.ocdenProgrammed = true
    (∃ t, exec .nop s = .next t ∧ Frame [] s t ∧ PcAt s t 1) ∧
    (∃ t, exec .wdr s = .next t ∧ t.events = .wdr :: s.events ∧ Frame [.events] s t ∧ PcAt s t 1) ∧
    (∃ t, exec .sleep s = .next t ∧ (s.sleepEnabled = true → t.run = .sleeping) ∧
      (s.sleepEnabled = false → t.run = s.run) ∧ Frame [.run] s t ∧ PcAt s t 1) ∧
    ∃ t, exec .brk s = .next t ∧ (debug → t.run = .stopped) ∧ (¬ debug → t.run = s.run) ∧
      Frame [.run] s t ∧ PcAt s t 1

/-- R62, R63, R76 to R79, R299, R377: a load from an address that returns no byte, and a store to one that stores nothing,
fault with the reason of the address's class: unmapped, a flash mapping, or (the model's choice, log 6) SRAM that nothing
has written. So do the auto-modifying forms at the address they use, XCH at its read and else at its store, LAS, LAC and
LAT on unwritten SRAM, and a push, call, pop or return at the first of its stack bytes that cannot be stored or read. The
faults are the spec's decision D18 (log 23); the addresses rest on its decisions D27 (displacements and moved pointers,
log 31), D15 (the 16-bit address, log 28) and D21 (SP's wrap, log 25). -/
def Obligations.DataFaults : Prop :=
  ∀ (s : State) (d : Reg) (k : BitVec 16) (k7 : BitVec 7) (q : BitVec 6),
    let z := (ptrGet .Z s).toNat
    (∀ p ∈ [(Instr.lds d k, directAddr k s), (.lds16 d k7, (addr16 s.cfg k7).setWidth 24), (.ldX d, ptrGet .X s),
        (.ldY d, ptrGet .Y s), (.ldZ d, ptrGet .Z s), (.lddY d q, ptrAdd .Y (q.setWidth 24) s),
        (.lddZ d q, ptrAdd .Z (q.setWidth 24) s), (.xch d, ptrGet .Z s)],
      ¬ Readable s p.2.toNat → exec p.1 s = .fault (readFault s p.2.toNat)) ∧
    (∀ p ∈ [(Instr.sts k d, directAddr k s), (.sts16 k7 d, (addr16 s.cfg k7).setWidth 24), (.stX d, ptrGet .X s),
        (.stY d, ptrGet .Y s), (.stZ d, ptrGet .Z s), (.stdY q d, ptrAdd .Y (q.setWidth 24) s),
        (.stdZ q d, ptrAdd .Z (q.setWidth 24) s)],
      ¬ Writable s.cfg p.2.toNat → exec p.1 s = .fault (writeFault s.cfg p.2.toNat)) ∧
    (∀ p ∈ [(Ptr.X, Instr.ldXInc d, Instr.ldXDec d, Instr.stXInc d, Instr.stXDec d),
        (.Y, .ldYInc d, .ldYDec d, .stYInc d, .stYDec d), (.Z, .ldZInc d, .ldZDec d, .stZInc d, .stZDec d)],
      d ≠ ptrLow p.1 → d ≠ ptrHigh p.1 →
      let old := (ptrGet p.1 s).toNat
      let low := (ptrAdd p.1 (-1) s).toNat
      (¬ Readable s old → exec p.2.1 s = .fault (readFault s old)) ∧
      (¬ Readable s low → exec p.2.2.1 s = .fault (readFault s low)) ∧
      (¬ Writable s.cfg old → exec p.2.2.2.1 s = .fault (writeFault s.cfg old)) ∧
      (¬ Writable s.cfg low → exec p.2.2.2.2 s = .fault (writeFault s.cfg low))) ∧
    (Readable s z → ¬ Writable s.cfg z → exec (.xch d) s = .fault (writeFault s.cfg z)) ∧
    (classify s.cfg z = .sram z → s.sram z = none →
      ∀ i ∈ [Instr.las d, .lac d, .lat d], exec i s = .fault (.unwrittenMemory z)) ∧
    (∀ j, (∀ i < j, Readable s (popSlot s i)) → ¬ Readable s (popSlot s j) →
      (j = 0 → exec (.pop d) s = .fault (readFault s (popSlot s j))) ∧
      (j < retBytes s.cfg → ∀ i ∈ [Instr.ret, .reti], exec i s = .fault (readFault s (popSlot s j)))) ∧
    ∀ j, (∀ i < j, Writable s.cfg (pushSlot s i)) → ¬ Writable s.cfg (pushSlot s j) →
      (j = 0 → exec (.push d) s = .fault (writeFault s.cfg (pushSlot s j))) ∧
      (j < retBytes s.cfg → ∀ (k12 : BitVec 12) (k22 : BitVec 22), ∀ i ∈ [Instr.rcall k12, .icall, .eicall, .call k22],
        exec i s = .fault (writeFault s.cfg (pushSlot s j)))

/-! ### Interrupts, sleep, reset -/

/-- R380, R383: the check takes an interrupt exactly where I is set, `irq_inhibit` is clear and a source in 1 ..
NUM_VECTORS - 1 is requesting; the source taken is one of those, the lowest of them unless `IrqSelect` is left free. All
of it is the spec's decision D7 (log 11, log 13). -/
def Obligations.InterruptCheck : Prop :=
  ∀ s : State,
    let requesting (n : Nat) : Prop := n ∈ s.irqPending ∧ 1 ≤ n ∧ n < s.cfg.numVectors
    ((∃ n, interruptTaken s = some n) ↔ s.flag .I = true ∧ s.irqInhibit = false ∧ ∃ n, requesting n) ∧
    ∀ n, interruptTaken s = some n → requesting n ∧
      (s.cfg.irqSelect = .lowest → ∀ m, requesting m → n ≤ m)

/-- R380, R381: a step of a machine that is not stopped takes the interrupt the check finds: the pc is pushed as a
call pushes it, I is cleared (not on AVRxm), the pc goes to VECTOR(n), which is the entry the configuration lists for
n or else VECTOR_BASE + n * VECTOR_STRIDE, truncated to PC_BITS, `irq_inhibit` is cleared, the machine runs and the
platform is told. The first stack byte that cannot be stored makes the step fault. All of it is the spec's decisions
D7 and D3 (log 8, log 11); VECTOR's form is log 39, IrqAck's log 13, the counted draw log 41, SP's wrap D21 (log 25),
the fault D18 (log 23), a stack byte on a device D19 (log 9), one on SP's own location R64's inference (log 32). -/
def Obligations.InterruptEntryEffect : Prop :=
  ∀ (s : State) (n : Nat), s.run ≠ .stopped → interruptTaken s = some n →
    ((∀ j < retBytes s.cfg, Writable s.cfg (pushSlot s j)) →
      ∃ u t, step s = .next t ∧ PushedAll (returnBytes s.cfg s.pc) s u ∧ EntryEffect n u t ∧
        t.pc.toNat = (match s.cfg.vectorTable.lookup n with
          | some a => a.toNat
          | none => s.cfg.vectorBase + n * s.cfg.vectorStride) % 2 ^ s.cfg.pcBits.width) ∧
    ∀ j < retBytes s.cfg, (∀ i < j, Writable s.cfg (pushSlot s i)) → ¬ Writable s.cfg (pushSlot s j) →
      step s = .fault (writeFault s.cfg (pushSlot s j))

/-- R360, R362, R380: a sleeping machine with no interrupt to take stays as it is, whatever stands at its pc; a stopped
machine takes no step, not even for an interrupt. Both are the spec's decisions D12 and D13 (log 15, log 16). -/
def Obligations.SleepingAndStopped : Prop :=
  ∀ s : State,
    (s.run = .sleeping → (s.flag .I = false ∨ s.irqInhibit = true ∨ ∀ n ∈ s.irqPending, n = 0 ∨ s.cfg.numVectors ≤ n) →
      step s = .next s) ∧
    (s.run = .stopped → step s = .refused .runEnded)

/-- R42, R380, R403: after a step that runs SEI, RETI, or an OUT to SREG that raises I, no interrupt is taken at the next
step; after CLI none is taken either; and after a step of any instruction that neither delays interrupts nor stores
to the SREG location, `irq_inhibit` is clear. Beyond SEI and CLI it is the spec's decision D7 (log 12). -/
def Obligations.InterruptDelay : Prop :=
  ∀ (s t : State) (i : Instr), s.run = .running → interruptTaken s = none → fetch s = .ok i → step s = .next t →
    ((i = .sei ∨ i = .bset 7 ∨ i = .reti ∨ i = .cli ∨ i = .bclr 7) → interruptTaken t = none) ∧
    (∀ A r, i = .outIo A r → A = s.cfg.ioSreg → s.flag .I = false → interruptTaken t = none) ∧
    (delaysIrq i = false → storesTo i s .sreg = false → t.irqInhibit = false)

/-- R48, R400, as the model takes them (logs 2 to 5: the values are the spec's decisions and the model's, not the
manual's): after reset under any configuration the pc is RESET_PC, SP is RESET_SP, every register, SREG, RAMP register and
EIND is 0, nothing is in SRAM (log 6), program memory reads erased (log 7), the machine runs with no delay; a reset event
between two steps gives the same CPU state and keeps program memory (R400) and all of the platform's state (log 46). -/
def Obligations.ResetValues : Prop :=
  (∀ c : Config, let s := State.resetWith c
    s.cfg = c ∧ s.pc = c.resetPc ∧ s.sp = c.resetSp ∧ (∀ r, s.reg r = 0) ∧ (∀ f, s.flag f = false) ∧
    (∀ p, s.ramp p = 0) ∧ s.rampD = 0 ∧ s.eind = 0 ∧ (∀ a, s.sram a = none) ∧ (∀ b, s.progCell b = 0xFF) ∧
    s.irqInhibit = false ∧ s.run = .running ∧ interruptTaken s = none) ∧
  ∀ s : State,
    let t := s.resetEvent
    let z := State.resetWith s.cfg
    t.pc = z.pc ∧
    Frame ([.spmBuffer, .lockBit, .jtagen, .ocden, .sleepEnabled, .irqPending, .events, .draws]) { z with prog := s.prog } t ∧
    t.prog = s.prog ∧ t.spmBuffer = s.spmBuffer ∧ t.lockBitSet = s.lockBitSet ∧
    t.jtagenProgrammed = s.jtagenProgrammed ∧ t.ocdenProgrammed = s.ocdenProgrammed ∧
    t.sleepEnabled = s.sleepEnabled ∧ t.irqPending = s.irqPending ∧ t.events = s.events ∧ t.draws = s.draws

/-! ### The whole machine -/

/-- R28, R64: an instruction leaves every flag that the table does not name for it; only a store that reaches the SREG
location, by an I/O or a data address, may write others; RETI on AVRxm leaves every flag. That DES writes none is R187's
own inference (log 43). -/
def Obligations.FlagsWrittenOnlyAsListed : Prop :=
  ∀ (i : Instr) (s t : State) (f : Flag), exec i s = .next t → storesTo i s .sreg = false →
    f ∉ instrFlags i ∨ (i = .reti ∧ s.cfg.core = .AVRxm) → t.flag f = s.flag f

/-- R31, R36, R64: only the instructions that use SP, and a store that reaches the location of SPL or SPH, change SP; every
instruction but the listed transfers of control and two-word instructions moves the pc one word on. The pc's wrap is the
spec's decision D6 (log 24). -/
def Obligations.SpAndPcChangedOnlyAsListed : Prop :=
  ∀ (i : Instr) (s t : State), exec i s = .next t →
    (usesSp i = false → storesTo i s .spl = false → storesTo i s .sph = false → t.sp = s.sp) ∧
    (movesPc i = false → PcAt s t 1)

/-- R65, R83, R6 to R11: a step changes no parameter of the configuration, no fuse and not SLEEP_ENABLED; the requests
stay but for the one that IrqAck clears when its interrupt is taken; and program memory, the page buffer and the lock bits
change only in a step that runs SPM: not when an interrupt is taken, and not while the machine sleeps. What `IrqAck` clears
and what SPM may change are the model's form of D7 and D11 (log 13, log 19), when that is visible is log 44. -/
def Obligations.ProgramMemoryChangedOnlyBySpm : Prop :=
  ∀ s t : State, step s = .next t →
    t.cfg = s.cfg ∧ t.jtagenProgrammed = s.jtagenProgrammed ∧ t.ocdenProgrammed = s.ocdenProgrammed ∧
    t.sleepEnabled = s.sleepEnabled ∧
    t.irqPending = (match interruptTaken s with
      | some n => if n ∈ s.cfg.ackClears then s.irqPending.filter (· ≠ n) else s.irqPending
      | none => s.irqPending) ∧
    ((s.run = .running → interruptTaken s = none → fetch s ≠ .ok .spm ∧ fetch s ≠ .ok .spmInc) →
      t.prog = s.prog ∧ t.spmBuffer = s.spmBuffer ∧ t.lockBitSet = s.lockBitSet)

/-- The invariant of Safety.lean holds at reset (R48, R400, logs 2 to 7). -/
def Obligations.ResetMeetsInvariant : Prop := State.reset.Inv

/-- R32, R35, R60 to R63, R65: from every state that meets the invariant, every step that answers a next state answers one
that meets it: the configuration stays consistent, both memories stay in canonical form and inside their maps, the pc
below 2^PC_BITS and SP below 2^SP_BITS. The wraps are the spec's decisions D6 and D21 (log 24, log 25). -/
def Obligations.EveryStepKeepsInvariant : Prop := ∀ s t : State, s.Inv → step s = .next t → t.Inv

end
end

