-- ==== Sys2Proof/Laws/Memory.lean ====
section
/-! SUPPORT. The laws of the sparse memory: a read after a write, the reads elsewhere, and the canonical form, which every
memory operation keeps (spec/20_memory.md R60, R65). -/

namespace Sys2Proof.Machine

/-! ### Reads after writes -/

@[simp] theorem Memory.lookup_insert_self (m : Memory) (a : Nat) (v : Byte) :
    Memory.lookup (Memory.insert m a v) a = some v := by
  induction m with
  | nil => simp [Memory.insert, Memory.lookup]
  | cons c t ih =>
    obtain ⟨k, w⟩ := c
    simp only [Memory.insert]
    split
    · simp [Memory.lookup]
    · split
      · simp [Memory.lookup]
      · rename_i h
        simp [Memory.lookup, Ne.symm h, ih]

theorem Memory.lookup_insert_of_ne (m : Memory) (a b : Nat) (v : Byte) (h : b ≠ a) :
    Memory.lookup (Memory.insert m a v) b = Memory.lookup m b := by
  induction m with
  | nil => simp [Memory.insert, Memory.lookup, Ne.symm h]
  | cons c t ih =>
    obtain ⟨k, w⟩ := c
    simp only [Memory.insert]
    split
    · simp [Memory.lookup, Ne.symm h]
    · split
      · rename_i hk
        subst hk
        simp [Memory.lookup, Ne.symm h]
      · simp [Memory.lookup, ih]

theorem Memory.lookup_erase_of_ne (m : Memory) (a b : Nat) (h : b ≠ a) :
    Memory.lookup (Memory.erase m a) b = Memory.lookup m b := by
  induction m with
  | nil => rfl
  | cons c t ih =>
    obtain ⟨k, w⟩ := c
    simp only [Memory.erase]
    split
    · rename_i hk
      subst hk
      simp [Memory.lookup, Ne.symm h]
    · simp [Memory.lookup, ih]

/-- In a list whose addresses rise, nothing below the first entry is listed. -/
theorem Memory.lookup_of_lt (m : Memory) (a : Nat) (h : ∀ e ∈ m, a < e.1) : Memory.lookup m a = none := by
  induction m with
  | nil => rfl
  | cons c t ih =>
    obtain ⟨k, w⟩ := c
    have hk : a < k := h (k, w) (by simp)
    have : k ≠ a := by omega
    simp [Memory.lookup, this, ih fun e he => h e (by simp [he])]

theorem Memory.lookup_erase_self (m : Memory) (a : Nat) (h : m.Pairwise fun x y => x.1 < y.1) :
    Memory.lookup (Memory.erase m a) a = none := by
  induction m with
  | nil => rfl
  | cons c t ih =>
    obtain ⟨k, w⟩ := c
    rw [List.pairwise_cons] at h
    simp only [Memory.erase]
    split
    · rename_i hk
      subst hk
      exact Memory.lookup_of_lt t k h.1
    · rename_i hk
      simp [Memory.lookup, hk, ih h.2]

/-- A byte with no blank value reads back as written, in any list. -/
@[simp] theorem Memory.read_write_data (m : Memory) (a : Nat) (v : Byte) :
    Memory.read dataBlank (Memory.write dataBlank m a v) a = some v := by
  simp [Memory.read, Memory.write, dataBlank]

/-- A write leaves every other address alone, in any list. -/
theorem Memory.read_write_of_ne (blank : Option Byte) (m : Memory) (a b : Nat) (v : Byte) (h : b ≠ a) :
    Memory.read blank (Memory.write blank m a v) b = Memory.read blank m b := by
  by_cases hb : blank = some v <;>
    simp [Memory.read, Memory.write, hb, Memory.lookup_erase_of_ne _ _ _ h, Memory.lookup_insert_of_ne _ _ _ _ h]

/-! ### The canonical form -/

/-- The two halves of the canonical form. -/
theorem Memory.wf_iff (blank : Option Byte) (m : Memory) :
    Memory.wf blank m = true ↔ m.Pairwise (fun x y => x.1 < y.1) ∧ ∀ e ∈ m, blank ≠ some e.2 := by
  simp [Memory.wf]

theorem Memory.mem_insert (m : Memory) (a : Nat) (v : Byte) (e : Host.Cell) (h : e ∈ Memory.insert m a v) :
    e = (a, v) ∨ e ∈ m := by
  induction m with
  | nil => simpa [Memory.insert] using h
  | cons c t ih =>
    obtain ⟨k, w⟩ := c
    simp only [Memory.insert] at h
    split at h
    · simpa using h
    · split at h
      · rcases List.mem_cons.1 h with h | h
        · exact .inl h
        · exact .inr (by simp [h])
      · rcases List.mem_cons.1 h with h | h
        · exact .inr (by simp [h])
        · rcases ih h with h | h
          · exact .inl h
          · exact .inr (by simp [h])

theorem Memory.mem_erase (m : Memory) (a : Nat) (e : Host.Cell) (h : e ∈ Memory.erase m a) : e ∈ m := by
  induction m with
  | nil => simp [Memory.erase] at h
  | cons c t ih =>
    obtain ⟨k, w⟩ := c
    simp only [Memory.erase] at h
    split at h
    · simp [h]
    · rcases List.mem_cons.1 h with h | h
      · simp [h]
      · simp [ih h]

/-- An entry of a written memory is the written one or an old one. -/
theorem Memory.mem_write (blank : Option Byte) (m : Memory) (a : Nat) (v : Byte) (e : Host.Cell)
    (h : e ∈ Memory.write blank m a v) : e = (a, v) ∨ e ∈ m := by
  unfold Memory.write at h
  split at h
  · exact .inr (Memory.mem_erase m a e h)
  · exact Memory.mem_insert m a v e h

theorem Memory.sorted_insert (m : Memory) (a : Nat) (v : Byte) (h : m.Pairwise fun x y => x.1 < y.1) :
    (Memory.insert m a v).Pairwise fun x y => x.1 < y.1 := by
  induction m with
  | nil => simp [Memory.insert]
  | cons c t ih =>
    obtain ⟨k, w⟩ := c
    rw [List.pairwise_cons] at h
    simp only [Memory.insert]
    split
    · rename_i hk
      refine List.pairwise_cons.2 ⟨fun e he => ?_, List.pairwise_cons.2 h⟩
      rcases List.mem_cons.1 he with he | he
      · simpa [he] using hk
      · exact Nat.lt_trans hk (h.1 e he)
    · split
      · rename_i hk
        subst hk
        exact List.pairwise_cons.2 ⟨h.1, h.2⟩
      · rename_i h1 h2
        refine List.pairwise_cons.2 ⟨fun e he => ?_, ih h.2⟩
        rcases Memory.mem_insert t a v e he with he | he
        · subst he
          show k < a
          omega
        · exact h.1 e he

theorem Memory.sorted_erase (m : Memory) (a : Nat) (h : m.Pairwise fun x y => x.1 < y.1) :
    (Memory.erase m a).Pairwise fun x y => x.1 < y.1 := by
  induction m with
  | nil => simp [Memory.erase]
  | cons c t ih =>
    obtain ⟨k, w⟩ := c
    rw [List.pairwise_cons] at h
    simp only [Memory.erase]
    split
    · exact h.2
    · exact List.pairwise_cons.2 ⟨fun e he => h.1 e (Memory.mem_erase t a e he), ih h.2⟩

/-- Every write keeps the canonical form. -/
theorem Memory.wf_write (blank : Option Byte) (m : Memory) (a : Nat) (v : Byte) (h : Memory.wf blank m = true) :
    Memory.wf blank (Memory.write blank m a v) = true := by
  rw [Memory.wf_iff] at h ⊢
  refine ⟨?_, fun e he => ?_⟩
  · unfold Memory.write
    split
    · exact Memory.sorted_erase m a h.1
    · exact Memory.sorted_insert m a v h.1
  · unfold Memory.write at he
    split at he
    · exact h.2 e (Memory.mem_erase m a e he)
    · rename_i hb
      rcases Memory.mem_insert m a v e he with he | he
      · subst he
        exact hb
      · exact h.2 e he

/-- A canonical memory reads back what was written, whatever an unlisted address reads as. -/
theorem Memory.read_write_self (blank : Option Byte) (m : Memory) (a : Nat) (v : Byte)
    (h : Memory.wf blank m = true) : Memory.read blank (Memory.write blank m a v) a = some v := by
  rw [Memory.wf_iff] at h
  by_cases hb : blank = some v <;> simp [Memory.read, Memory.write, hb, Memory.lookup_erase_self m a h.1]

/-- Writing a program word keeps the canonical form. -/
theorem Memory.wf_writeWord (m : Memory) (a : Nat) (w : Word) (h : Memory.wf progBlank m = true) :
    Memory.wf progBlank (Memory.writeWord m a w) = true :=
  Memory.wf_write _ _ _ _ (Memory.wf_write _ _ _ _ h)

/-- Storing program words keeps the canonical form. -/
theorem storeWords_wf (flashEnd : Nat) (m : Memory) (words : List (Nat × Word))
    (h : Memory.wf progBlank m = true) : Memory.wf progBlank (storeWords flashEnd m words) = true := by
  induction words generalizing m with
  | nil => exact h
  | cons e t ih =>
    unfold storeWords
    rw [List.foldl_cons]
    refine ih _ ?_
    split
    · exact Memory.wf_writeWord m e.1 e.2 h
    · exact h

/-- Storing program words lists nothing above FLASHEND. -/
theorem storeWords_bound (flashEnd : Nat) (m : Memory) (words : List (Nat × Word))
    (h : ∀ e ∈ m, e.1 / 2 ≤ flashEnd) : ∀ e ∈ storeWords flashEnd m words, e.1 / 2 ≤ flashEnd := by
  induction words generalizing m with
  | nil => exact h
  | cons x t ih =>
    unfold storeWords
    rw [List.foldl_cons]
    refine ih _ ?_
    split
    · rename_i hx
      intro e he
      rcases Memory.mem_write _ _ _ _ _ he with he | he
      · subst he
        show (2 * x.1 + 1) / 2 ≤ flashEnd
        omega
      · rcases Memory.mem_write _ _ _ _ _ he with he | he
        · subst he
          show (2 * x.1) / 2 ≤ flashEnd
          omega
        · exact h e he
    · exact h

end Sys2Proof.Machine
end

