-- ==== Sys2Proof/Laws/State.lean ====
section
/-! SUPPORT. One lemma for each field (and each accessor) under each update of a state, true by `rfl`, so that no proof
unfolds a record update. Generated by rule; the read of a register, a pair or a RAMP register under its own update is in
Laws/Registers.lean. -/

namespace Sys2Proof.Machine

variable (s : State)

/-! `State.setReg` -/
@[simp] theorem State.setReg_cfg (r : Reg) (v : Byte) : (s.setReg r v).cfg = s.cfg := rfl
@[simp] theorem State.setReg_regs (r : Reg) (v : Byte) : (s.setReg r v).regs = s.regs.set r.val v r.isLt := rfl
@[simp] theorem State.setReg_pc (r : Reg) (v : Byte) : (s.setReg r v).pc = s.pc := rfl
@[simp] theorem State.setReg_sreg (r : Reg) (v : Byte) : (s.setReg r v).sreg = s.sreg := rfl
@[simp] theorem State.setReg_sp (r : Reg) (v : Byte) : (s.setReg r v).sp = s.sp := rfl
@[simp] theorem State.setReg_rampX (r : Reg) (v : Byte) : (s.setReg r v).rampX = s.rampX := rfl
@[simp] theorem State.setReg_rampY (r : Reg) (v : Byte) : (s.setReg r v).rampY = s.rampY := rfl
@[simp] theorem State.setReg_rampZ (r : Reg) (v : Byte) : (s.setReg r v).rampZ = s.rampZ := rfl
@[simp] theorem State.setReg_rampD (r : Reg) (v : Byte) : (s.setReg r v).rampD = s.rampD := rfl
@[simp] theorem State.setReg_eind (r : Reg) (v : Byte) : (s.setReg r v).eind = s.eind := rfl
@[simp] theorem State.setReg_data (r : Reg) (v : Byte) : (s.setReg r v).data = s.data := rfl
@[simp] theorem State.setReg_prog (r : Reg) (v : Byte) : (s.setReg r v).prog = s.prog := rfl
@[simp] theorem State.setReg_irqInhibit (r : Reg) (v : Byte) : (s.setReg r v).irqInhibit = s.irqInhibit := rfl
@[simp] theorem State.setReg_run (r : Reg) (v : Byte) : (s.setReg r v).run = s.run := rfl
@[simp] theorem State.setReg_spmBuffer (r : Reg) (v : Byte) : (s.setReg r v).spmBuffer = s.spmBuffer := rfl
@[simp] theorem State.setReg_lockBitSet (r : Reg) (v : Byte) : (s.setReg r v).lockBitSet = s.lockBitSet := rfl
@[simp] theorem State.setReg_jtagenProgrammed (r : Reg) (v : Byte) : (s.setReg r v).jtagenProgrammed = s.jtagenProgrammed := rfl
@[simp] theorem State.setReg_ocdenProgrammed (r : Reg) (v : Byte) : (s.setReg r v).ocdenProgrammed = s.ocdenProgrammed := rfl
@[simp] theorem State.setReg_sleepEnabled (r : Reg) (v : Byte) : (s.setReg r v).sleepEnabled = s.sleepEnabled := rfl
@[simp] theorem State.setReg_irqPending (r : Reg) (v : Byte) : (s.setReg r v).irqPending = s.irqPending := rfl
@[simp] theorem State.setReg_events (r : Reg) (v : Byte) : (s.setReg r v).events = s.events := rfl
@[simp] theorem State.setReg_draws (r : Reg) (v : Byte) : (s.setReg r v).draws = s.draws := rfl
@[simp] theorem State.setReg_flag (r : Reg) (v : Byte) (f : Flag) : (s.setReg r v).flag f = s.flag f := rfl
@[simp] theorem State.setReg_ramp (r : Reg) (v : Byte) (q : Ptr) : (s.setReg r v).ramp q = s.ramp q := rfl
@[simp] theorem State.setReg_sram (r : Reg) (v : Byte) (a : Nat) : (s.setReg r v).sram a = s.sram a := rfl
@[simp] theorem State.setReg_progCell (r : Reg) (v : Byte) (n : Nat) : (s.setReg r v).progCell n = s.progCell n := rfl
@[simp] theorem State.setReg_progWord (r : Reg) (v : Byte) (a : Nat) : (s.setReg r v).progWord a = s.progWord a := rfl

/-! `State.setSreg` -/
@[simp] theorem State.setSreg_cfg (v : Byte) : (s.setSreg v).cfg = s.cfg := rfl
@[simp] theorem State.setSreg_regs (v : Byte) : (s.setSreg v).regs = s.regs := rfl
@[simp] theorem State.setSreg_pc (v : Byte) : (s.setSreg v).pc = s.pc := rfl
@[simp] theorem State.setSreg_sreg (v : Byte) : (s.setSreg v).sreg = v := rfl
@[simp] theorem State.setSreg_sp (v : Byte) : (s.setSreg v).sp = s.sp := rfl
@[simp] theorem State.setSreg_rampX (v : Byte) : (s.setSreg v).rampX = s.rampX := rfl
@[simp] theorem State.setSreg_rampY (v : Byte) : (s.setSreg v).rampY = s.rampY := rfl
@[simp] theorem State.setSreg_rampZ (v : Byte) : (s.setSreg v).rampZ = s.rampZ := rfl
@[simp] theorem State.setSreg_rampD (v : Byte) : (s.setSreg v).rampD = s.rampD := rfl
@[simp] theorem State.setSreg_eind (v : Byte) : (s.setSreg v).eind = s.eind := rfl
@[simp] theorem State.setSreg_data (v : Byte) : (s.setSreg v).data = s.data := rfl
@[simp] theorem State.setSreg_prog (v : Byte) : (s.setSreg v).prog = s.prog := rfl
@[simp] theorem State.setSreg_irqInhibit (v : Byte) : (s.setSreg v).irqInhibit = s.irqInhibit := rfl
@[simp] theorem State.setSreg_run (v : Byte) : (s.setSreg v).run = s.run := rfl
@[simp] theorem State.setSreg_spmBuffer (v : Byte) : (s.setSreg v).spmBuffer = s.spmBuffer := rfl
@[simp] theorem State.setSreg_lockBitSet (v : Byte) : (s.setSreg v).lockBitSet = s.lockBitSet := rfl
@[simp] theorem State.setSreg_jtagenProgrammed (v : Byte) : (s.setSreg v).jtagenProgrammed = s.jtagenProgrammed := rfl
@[simp] theorem State.setSreg_ocdenProgrammed (v : Byte) : (s.setSreg v).ocdenProgrammed = s.ocdenProgrammed := rfl
@[simp] theorem State.setSreg_sleepEnabled (v : Byte) : (s.setSreg v).sleepEnabled = s.sleepEnabled := rfl
@[simp] theorem State.setSreg_irqPending (v : Byte) : (s.setSreg v).irqPending = s.irqPending := rfl
@[simp] theorem State.setSreg_events (v : Byte) : (s.setSreg v).events = s.events := rfl
@[simp] theorem State.setSreg_draws (v : Byte) : (s.setSreg v).draws = s.draws := rfl
@[simp] theorem State.setSreg_reg (v : Byte) (i : Reg) : (s.setSreg v).reg i = s.reg i := rfl
@[simp] theorem State.setSreg_pair (v : Byte) (lo : Reg) : (s.setSreg v).pair lo = s.pair lo := rfl
@[simp] theorem State.setSreg_ramp (v : Byte) (q : Ptr) : (s.setSreg v).ramp q = s.ramp q := rfl
@[simp] theorem State.setSreg_sram (v : Byte) (a : Nat) : (s.setSreg v).sram a = s.sram a := rfl
@[simp] theorem State.setSreg_progCell (v : Byte) (n : Nat) : (s.setSreg v).progCell n = s.progCell n := rfl
@[simp] theorem State.setSreg_progWord (v : Byte) (a : Nat) : (s.setSreg v).progWord a = s.progWord a := rfl

/-! `State.setPc` -/
@[simp] theorem State.setPc_cfg (v : PcWord) : (s.setPc v).cfg = s.cfg := rfl
@[simp] theorem State.setPc_regs (v : PcWord) : (s.setPc v).regs = s.regs := rfl
@[simp] theorem State.setPc_pc (v : PcWord) : (s.setPc v).pc = v := rfl
@[simp] theorem State.setPc_sreg (v : PcWord) : (s.setPc v).sreg = s.sreg := rfl
@[simp] theorem State.setPc_sp (v : PcWord) : (s.setPc v).sp = s.sp := rfl
@[simp] theorem State.setPc_rampX (v : PcWord) : (s.setPc v).rampX = s.rampX := rfl
@[simp] theorem State.setPc_rampY (v : PcWord) : (s.setPc v).rampY = s.rampY := rfl
@[simp] theorem State.setPc_rampZ (v : PcWord) : (s.setPc v).rampZ = s.rampZ := rfl
@[simp] theorem State.setPc_rampD (v : PcWord) : (s.setPc v).rampD = s.rampD := rfl
@[simp] theorem State.setPc_eind (v : PcWord) : (s.setPc v).eind = s.eind := rfl
@[simp] theorem State.setPc_data (v : PcWord) : (s.setPc v).data = s.data := rfl
@[simp] theorem State.setPc_prog (v : PcWord) : (s.setPc v).prog = s.prog := rfl
@[simp] theorem State.setPc_irqInhibit (v : PcWord) : (s.setPc v).irqInhibit = s.irqInhibit := rfl
@[simp] theorem State.setPc_run (v : PcWord) : (s.setPc v).run = s.run := rfl
@[simp] theorem State.setPc_spmBuffer (v : PcWord) : (s.setPc v).spmBuffer = s.spmBuffer := rfl
@[simp] theorem State.setPc_lockBitSet (v : PcWord) : (s.setPc v).lockBitSet = s.lockBitSet := rfl
@[simp] theorem State.setPc_jtagenProgrammed (v : PcWord) : (s.setPc v).jtagenProgrammed = s.jtagenProgrammed := rfl
@[simp] theorem State.setPc_ocdenProgrammed (v : PcWord) : (s.setPc v).ocdenProgrammed = s.ocdenProgrammed := rfl
@[simp] theorem State.setPc_sleepEnabled (v : PcWord) : (s.setPc v).sleepEnabled = s.sleepEnabled := rfl
@[simp] theorem State.setPc_irqPending (v : PcWord) : (s.setPc v).irqPending = s.irqPending := rfl
@[simp] theorem State.setPc_events (v : PcWord) : (s.setPc v).events = s.events := rfl
@[simp] theorem State.setPc_draws (v : PcWord) : (s.setPc v).draws = s.draws := rfl
@[simp] theorem State.setPc_reg (v : PcWord) (i : Reg) : (s.setPc v).reg i = s.reg i := rfl
@[simp] theorem State.setPc_flag (v : PcWord) (f : Flag) : (s.setPc v).flag f = s.flag f := rfl
@[simp] theorem State.setPc_pair (v : PcWord) (lo : Reg) : (s.setPc v).pair lo = s.pair lo := rfl
@[simp] theorem State.setPc_ramp (v : PcWord) (q : Ptr) : (s.setPc v).ramp q = s.ramp q := rfl
@[simp] theorem State.setPc_sram (v : PcWord) (a : Nat) : (s.setPc v).sram a = s.sram a := rfl
@[simp] theorem State.setPc_progCell (v : PcWord) (n : Nat) : (s.setPc v).progCell n = s.progCell n := rfl
@[simp] theorem State.setPc_progWord (v : PcWord) (a : Nat) : (s.setPc v).progWord a = s.progWord a := rfl

/-! `State.setSp` -/
@[simp] theorem State.setSp_cfg (v : BitVec 16) : (s.setSp v).cfg = s.cfg := rfl
@[simp] theorem State.setSp_regs (v : BitVec 16) : (s.setSp v).regs = s.regs := rfl
@[simp] theorem State.setSp_pc (v : BitVec 16) : (s.setSp v).pc = s.pc := rfl
@[simp] theorem State.setSp_sreg (v : BitVec 16) : (s.setSp v).sreg = s.sreg := rfl
@[simp] theorem State.setSp_sp (v : BitVec 16) : (s.setSp v).sp = v := rfl
@[simp] theorem State.setSp_rampX (v : BitVec 16) : (s.setSp v).rampX = s.rampX := rfl
@[simp] theorem State.setSp_rampY (v : BitVec 16) : (s.setSp v).rampY = s.rampY := rfl
@[simp] theorem State.setSp_rampZ (v : BitVec 16) : (s.setSp v).rampZ = s.rampZ := rfl
@[simp] theorem State.setSp_rampD (v : BitVec 16) : (s.setSp v).rampD = s.rampD := rfl
@[simp] theorem State.setSp_eind (v : BitVec 16) : (s.setSp v).eind = s.eind := rfl
@[simp] theorem State.setSp_data (v : BitVec 16) : (s.setSp v).data = s.data := rfl
@[simp] theorem State.setSp_prog (v : BitVec 16) : (s.setSp v).prog = s.prog := rfl
@[simp] theorem State.setSp_irqInhibit (v : BitVec 16) : (s.setSp v).irqInhibit = s.irqInhibit := rfl
@[simp] theorem State.setSp_run (v : BitVec 16) : (s.setSp v).run = s.run := rfl
@[simp] theorem State.setSp_spmBuffer (v : BitVec 16) : (s.setSp v).spmBuffer = s.spmBuffer := rfl
@[simp] theorem State.setSp_lockBitSet (v : BitVec 16) : (s.setSp v).lockBitSet = s.lockBitSet := rfl
@[simp] theorem State.setSp_jtagenProgrammed (v : BitVec 16) : (s.setSp v).jtagenProgrammed = s.jtagenProgrammed := rfl
@[simp] theorem State.setSp_ocdenProgrammed (v : BitVec 16) : (s.setSp v).ocdenProgrammed = s.ocdenProgrammed := rfl
@[simp] theorem State.setSp_sleepEnabled (v : BitVec 16) : (s.setSp v).sleepEnabled = s.sleepEnabled := rfl
@[simp] theorem State.setSp_irqPending (v : BitVec 16) : (s.setSp v).irqPending = s.irqPending := rfl
@[simp] theorem State.setSp_events (v : BitVec 16) : (s.setSp v).events = s.events := rfl
@[simp] theorem State.setSp_draws (v : BitVec 16) : (s.setSp v).draws = s.draws := rfl
@[simp] theorem State.setSp_reg (v : BitVec 16) (i : Reg) : (s.setSp v).reg i = s.reg i := rfl
@[simp] theorem State.setSp_flag (v : BitVec 16) (f : Flag) : (s.setSp v).flag f = s.flag f := rfl
@[simp] theorem State.setSp_pair (v : BitVec 16) (lo : Reg) : (s.setSp v).pair lo = s.pair lo := rfl
@[simp] theorem State.setSp_ramp (v : BitVec 16) (q : Ptr) : (s.setSp v).ramp q = s.ramp q := rfl
@[simp] theorem State.setSp_sram (v : BitVec 16) (a : Nat) : (s.setSp v).sram a = s.sram a := rfl
@[simp] theorem State.setSp_progCell (v : BitVec 16) (n : Nat) : (s.setSp v).progCell n = s.progCell n := rfl
@[simp] theorem State.setSp_progWord (v : BitVec 16) (a : Nat) : (s.setSp v).progWord a = s.progWord a := rfl

/-! `State.setInhibit` -/
@[simp] theorem State.setInhibit_cfg (b : Bool) : (s.setInhibit b).cfg = s.cfg := rfl
@[simp] theorem State.setInhibit_regs (b : Bool) : (s.setInhibit b).regs = s.regs := rfl
@[simp] theorem State.setInhibit_pc (b : Bool) : (s.setInhibit b).pc = s.pc := rfl
@[simp] theorem State.setInhibit_sreg (b : Bool) : (s.setInhibit b).sreg = s.sreg := rfl
@[simp] theorem State.setInhibit_sp (b : Bool) : (s.setInhibit b).sp = s.sp := rfl
@[simp] theorem State.setInhibit_rampX (b : Bool) : (s.setInhibit b).rampX = s.rampX := rfl
@[simp] theorem State.setInhibit_rampY (b : Bool) : (s.setInhibit b).rampY = s.rampY := rfl
@[simp] theorem State.setInhibit_rampZ (b : Bool) : (s.setInhibit b).rampZ = s.rampZ := rfl
@[simp] theorem State.setInhibit_rampD (b : Bool) : (s.setInhibit b).rampD = s.rampD := rfl
@[simp] theorem State.setInhibit_eind (b : Bool) : (s.setInhibit b).eind = s.eind := rfl
@[simp] theorem State.setInhibit_data (b : Bool) : (s.setInhibit b).data = s.data := rfl
@[simp] theorem State.setInhibit_prog (b : Bool) : (s.setInhibit b).prog = s.prog := rfl
@[simp] theorem State.setInhibit_irqInhibit (b : Bool) : (s.setInhibit b).irqInhibit = b := rfl
@[simp] theorem State.setInhibit_run (b : Bool) : (s.setInhibit b).run = s.run := rfl
@[simp] theorem State.setInhibit_spmBuffer (b : Bool) : (s.setInhibit b).spmBuffer = s.spmBuffer := rfl
@[simp] theorem State.setInhibit_lockBitSet (b : Bool) : (s.setInhibit b).lockBitSet = s.lockBitSet := rfl
@[simp] theorem State.setInhibit_jtagenProgrammed (b : Bool) : (s.setInhibit b).jtagenProgrammed = s.jtagenProgrammed := rfl
@[simp] theorem State.setInhibit_ocdenProgrammed (b : Bool) : (s.setInhibit b).ocdenProgrammed = s.ocdenProgrammed := rfl
@[simp] theorem State.setInhibit_sleepEnabled (b : Bool) : (s.setInhibit b).sleepEnabled = s.sleepEnabled := rfl
@[simp] theorem State.setInhibit_irqPending (b : Bool) : (s.setInhibit b).irqPending = s.irqPending := rfl
@[simp] theorem State.setInhibit_events (b : Bool) : (s.setInhibit b).events = s.events := rfl
@[simp] theorem State.setInhibit_draws (b : Bool) : (s.setInhibit b).draws = s.draws := rfl
@[simp] theorem State.setInhibit_reg (b : Bool) (i : Reg) : (s.setInhibit b).reg i = s.reg i := rfl
@[simp] theorem State.setInhibit_flag (b : Bool) (f : Flag) : (s.setInhibit b).flag f = s.flag f := rfl
@[simp] theorem State.setInhibit_pair (b : Bool) (lo : Reg) : (s.setInhibit b).pair lo = s.pair lo := rfl
@[simp] theorem State.setInhibit_ramp (b : Bool) (q : Ptr) : (s.setInhibit b).ramp q = s.ramp q := rfl
@[simp] theorem State.setInhibit_sram (b : Bool) (a : Nat) : (s.setInhibit b).sram a = s.sram a := rfl
@[simp] theorem State.setInhibit_progCell (b : Bool) (n : Nat) : (s.setInhibit b).progCell n = s.progCell n := rfl
@[simp] theorem State.setInhibit_progWord (b : Bool) (a : Nat) : (s.setInhibit b).progWord a = s.progWord a := rfl

/-! `State.setRun` -/
@[simp] theorem State.setRun_cfg (r : Run) : (s.setRun r).cfg = s.cfg := rfl
@[simp] theorem State.setRun_regs (r : Run) : (s.setRun r).regs = s.regs := rfl
@[simp] theorem State.setRun_pc (r : Run) : (s.setRun r).pc = s.pc := rfl
@[simp] theorem State.setRun_sreg (r : Run) : (s.setRun r).sreg = s.sreg := rfl
@[simp] theorem State.setRun_sp (r : Run) : (s.setRun r).sp = s.sp := rfl
@[simp] theorem State.setRun_rampX (r : Run) : (s.setRun r).rampX = s.rampX := rfl
@[simp] theorem State.setRun_rampY (r : Run) : (s.setRun r).rampY = s.rampY := rfl
@[simp] theorem State.setRun_rampZ (r : Run) : (s.setRun r).rampZ = s.rampZ := rfl
@[simp] theorem State.setRun_rampD (r : Run) : (s.setRun r).rampD = s.rampD := rfl
@[simp] theorem State.setRun_eind (r : Run) : (s.setRun r).eind = s.eind := rfl
@[simp] theorem State.setRun_data (r : Run) : (s.setRun r).data = s.data := rfl
@[simp] theorem State.setRun_prog (r : Run) : (s.setRun r).prog = s.prog := rfl
@[simp] theorem State.setRun_irqInhibit (r : Run) : (s.setRun r).irqInhibit = s.irqInhibit := rfl
@[simp] theorem State.setRun_run (r : Run) : (s.setRun r).run = r := rfl
@[simp] theorem State.setRun_spmBuffer (r : Run) : (s.setRun r).spmBuffer = s.spmBuffer := rfl
@[simp] theorem State.setRun_lockBitSet (r : Run) : (s.setRun r).lockBitSet = s.lockBitSet := rfl
@[simp] theorem State.setRun_jtagenProgrammed (r : Run) : (s.setRun r).jtagenProgrammed = s.jtagenProgrammed := rfl
@[simp] theorem State.setRun_ocdenProgrammed (r : Run) : (s.setRun r).ocdenProgrammed = s.ocdenProgrammed := rfl
@[simp] theorem State.setRun_sleepEnabled (r : Run) : (s.setRun r).sleepEnabled = s.sleepEnabled := rfl
@[simp] theorem State.setRun_irqPending (r : Run) : (s.setRun r).irqPending = s.irqPending := rfl
@[simp] theorem State.setRun_events (r : Run) : (s.setRun r).events = s.events := rfl
@[simp] theorem State.setRun_draws (r : Run) : (s.setRun r).draws = s.draws := rfl
@[simp] theorem State.setRun_reg (r : Run) (i : Reg) : (s.setRun r).reg i = s.reg i := rfl
@[simp] theorem State.setRun_flag (r : Run) (f : Flag) : (s.setRun r).flag f = s.flag f := rfl
@[simp] theorem State.setRun_pair (r : Run) (lo : Reg) : (s.setRun r).pair lo = s.pair lo := rfl
@[simp] theorem State.setRun_ramp (r : Run) (q : Ptr) : (s.setRun r).ramp q = s.ramp q := rfl
@[simp] theorem State.setRun_sram (r : Run) (a : Nat) : (s.setRun r).sram a = s.sram a := rfl
@[simp] theorem State.setRun_progCell (r : Run) (n : Nat) : (s.setRun r).progCell n = s.progCell n := rfl
@[simp] theorem State.setRun_progWord (r : Run) (a : Nat) : (s.setRun r).progWord a = s.progWord a := rfl

/-! `State.setData` -/
@[simp] theorem State.setData_cfg (m : Memory) : (s.setData m).cfg = s.cfg := rfl
@[simp] theorem State.setData_regs (m : Memory) : (s.setData m).regs = s.regs := rfl
@[simp] theorem State.setData_pc (m : Memory) : (s.setData m).pc = s.pc := rfl
@[simp] theorem State.setData_sreg (m : Memory) : (s.setData m).sreg = s.sreg := rfl
@[simp] theorem State.setData_sp (m : Memory) : (s.setData m).sp = s.sp := rfl
@[simp] theorem State.setData_rampX (m : Memory) : (s.setData m).rampX = s.rampX := rfl
@[simp] theorem State.setData_rampY (m : Memory) : (s.setData m).rampY = s.rampY := rfl
@[simp] theorem State.setData_rampZ (m : Memory) : (s.setData m).rampZ = s.rampZ := rfl
@[simp] theorem State.setData_rampD (m : Memory) : (s.setData m).rampD = s.rampD := rfl
@[simp] theorem State.setData_eind (m : Memory) : (s.setData m).eind = s.eind := rfl
@[simp] theorem State.setData_data (m : Memory) : (s.setData m).data = m := rfl
@[simp] theorem State.setData_prog (m : Memory) : (s.setData m).prog = s.prog := rfl
@[simp] theorem State.setData_irqInhibit (m : Memory) : (s.setData m).irqInhibit = s.irqInhibit := rfl
@[simp] theorem State.setData_run (m : Memory) : (s.setData m).run = s.run := rfl
@[simp] theorem State.setData_spmBuffer (m : Memory) : (s.setData m).spmBuffer = s.spmBuffer := rfl
@[simp] theorem State.setData_lockBitSet (m : Memory) : (s.setData m).lockBitSet = s.lockBitSet := rfl
@[simp] theorem State.setData_jtagenProgrammed (m : Memory) : (s.setData m).jtagenProgrammed = s.jtagenProgrammed := rfl
@[simp] theorem State.setData_ocdenProgrammed (m : Memory) : (s.setData m).ocdenProgrammed = s.ocdenProgrammed := rfl
@[simp] theorem State.setData_sleepEnabled (m : Memory) : (s.setData m).sleepEnabled = s.sleepEnabled := rfl
@[simp] theorem State.setData_irqPending (m : Memory) : (s.setData m).irqPending = s.irqPending := rfl
@[simp] theorem State.setData_events (m : Memory) : (s.setData m).events = s.events := rfl
@[simp] theorem State.setData_draws (m : Memory) : (s.setData m).draws = s.draws := rfl
@[simp] theorem State.setData_reg (m : Memory) (i : Reg) : (s.setData m).reg i = s.reg i := rfl
@[simp] theorem State.setData_flag (m : Memory) (f : Flag) : (s.setData m).flag f = s.flag f := rfl
@[simp] theorem State.setData_pair (m : Memory) (lo : Reg) : (s.setData m).pair lo = s.pair lo := rfl
@[simp] theorem State.setData_ramp (m : Memory) (q : Ptr) : (s.setData m).ramp q = s.ramp q := rfl
@[simp] theorem State.setData_progCell (m : Memory) (n : Nat) : (s.setData m).progCell n = s.progCell n := rfl
@[simp] theorem State.setData_progWord (m : Memory) (a : Nat) : (s.setData m).progWord a = s.progWord a := rfl

/-! `State.setProg` -/
@[simp] theorem State.setProg_cfg (m : Memory) : (s.setProg m).cfg = s.cfg := rfl
@[simp] theorem State.setProg_regs (m : Memory) : (s.setProg m).regs = s.regs := rfl
@[simp] theorem State.setProg_pc (m : Memory) : (s.setProg m).pc = s.pc := rfl
@[simp] theorem State.setProg_sreg (m : Memory) : (s.setProg m).sreg = s.sreg := rfl
@[simp] theorem State.setProg_sp (m : Memory) : (s.setProg m).sp = s.sp := rfl
@[simp] theorem State.setProg_rampX (m : Memory) : (s.setProg m).rampX = s.rampX := rfl
@[simp] theorem State.setProg_rampY (m : Memory) : (s.setProg m).rampY = s.rampY := rfl
@[simp] theorem State.setProg_rampZ (m : Memory) : (s.setProg m).rampZ = s.rampZ := rfl
@[simp] theorem State.setProg_rampD (m : Memory) : (s.setProg m).rampD = s.rampD := rfl
@[simp] theorem State.setProg_eind (m : Memory) : (s.setProg m).eind = s.eind := rfl
@[simp] theorem State.setProg_data (m : Memory) : (s.setProg m).data = s.data := rfl
@[simp] theorem State.setProg_prog (m : Memory) : (s.setProg m).prog = m := rfl
@[simp] theorem State.setProg_irqInhibit (m : Memory) : (s.setProg m).irqInhibit = s.irqInhibit := rfl
@[simp] theorem State.setProg_run (m : Memory) : (s.setProg m).run = s.run := rfl
@[simp] theorem State.setProg_spmBuffer (m : Memory) : (s.setProg m).spmBuffer = s.spmBuffer := rfl
@[simp] theorem State.setProg_lockBitSet (m : Memory) : (s.setProg m).lockBitSet = s.lockBitSet := rfl
@[simp] theorem State.setProg_jtagenProgrammed (m : Memory) : (s.setProg m).jtagenProgrammed = s.jtagenProgrammed := rfl
@[simp] theorem State.setProg_ocdenProgrammed (m : Memory) : (s.setProg m).ocdenProgrammed = s.ocdenProgrammed := rfl
@[simp] theorem State.setProg_sleepEnabled (m : Memory) : (s.setProg m).sleepEnabled = s.sleepEnabled := rfl
@[simp] theorem State.setProg_irqPending (m : Memory) : (s.setProg m).irqPending = s.irqPending := rfl
@[simp] theorem State.setProg_events (m : Memory) : (s.setProg m).events = s.events := rfl
@[simp] theorem State.setProg_draws (m : Memory) : (s.setProg m).draws = s.draws := rfl
@[simp] theorem State.setProg_reg (m : Memory) (i : Reg) : (s.setProg m).reg i = s.reg i := rfl
@[simp] theorem State.setProg_flag (m : Memory) (f : Flag) : (s.setProg m).flag f = s.flag f := rfl
@[simp] theorem State.setProg_pair (m : Memory) (lo : Reg) : (s.setProg m).pair lo = s.pair lo := rfl
@[simp] theorem State.setProg_ramp (m : Memory) (q : Ptr) : (s.setProg m).ramp q = s.ramp q := rfl
@[simp] theorem State.setProg_sram (m : Memory) (a : Nat) : (s.setProg m).sram a = s.sram a := rfl

/-! `State.setIrqPending` -/
@[simp] theorem State.setIrqPending_cfg (l : List Nat) : (s.setIrqPending l).cfg = s.cfg := rfl
@[simp] theorem State.setIrqPending_regs (l : List Nat) : (s.setIrqPending l).regs = s.regs := rfl
@[simp] theorem State.setIrqPending_pc (l : List Nat) : (s.setIrqPending l).pc = s.pc := rfl
@[simp] theorem State.setIrqPending_sreg (l : List Nat) : (s.setIrqPending l).sreg = s.sreg := rfl
@[simp] theorem State.setIrqPending_sp (l : List Nat) : (s.setIrqPending l).sp = s.sp := rfl
@[simp] theorem State.setIrqPending_rampX (l : List Nat) : (s.setIrqPending l).rampX = s.rampX := rfl
@[simp] theorem State.setIrqPending_rampY (l : List Nat) : (s.setIrqPending l).rampY = s.rampY := rfl
@[simp] theorem State.setIrqPending_rampZ (l : List Nat) : (s.setIrqPending l).rampZ = s.rampZ := rfl
@[simp] theorem State.setIrqPending_rampD (l : List Nat) : (s.setIrqPending l).rampD = s.rampD := rfl
@[simp] theorem State.setIrqPending_eind (l : List Nat) : (s.setIrqPending l).eind = s.eind := rfl
@[simp] theorem State.setIrqPending_data (l : List Nat) : (s.setIrqPending l).data = s.data := rfl
@[simp] theorem State.setIrqPending_prog (l : List Nat) : (s.setIrqPending l).prog = s.prog := rfl
@[simp] theorem State.setIrqPending_irqInhibit (l : List Nat) : (s.setIrqPending l).irqInhibit = s.irqInhibit := rfl
@[simp] theorem State.setIrqPending_run (l : List Nat) : (s.setIrqPending l).run = s.run := rfl
@[simp] theorem State.setIrqPending_spmBuffer (l : List Nat) : (s.setIrqPending l).spmBuffer = s.spmBuffer := rfl
@[simp] theorem State.setIrqPending_lockBitSet (l : List Nat) : (s.setIrqPending l).lockBitSet = s.lockBitSet := rfl
@[simp] theorem State.setIrqPending_jtagenProgrammed (l : List Nat) : (s.setIrqPending l).jtagenProgrammed = s.jtagenProgrammed := rfl
@[simp] theorem State.setIrqPending_ocdenProgrammed (l : List Nat) : (s.setIrqPending l).ocdenProgrammed = s.ocdenProgrammed := rfl
@[simp] theorem State.setIrqPending_sleepEnabled (l : List Nat) : (s.setIrqPending l).sleepEnabled = s.sleepEnabled := rfl
@[simp] theorem State.setIrqPending_irqPending (l : List Nat) : (s.setIrqPending l).irqPending = l := rfl
@[simp] theorem State.setIrqPending_events (l : List Nat) : (s.setIrqPending l).events = s.events := rfl
@[simp] theorem State.setIrqPending_draws (l : List Nat) : (s.setIrqPending l).draws = s.draws := rfl
@[simp] theorem State.setIrqPending_reg (l : List Nat) (i : Reg) : (s.setIrqPending l).reg i = s.reg i := rfl
@[simp] theorem State.setIrqPending_flag (l : List Nat) (f : Flag) : (s.setIrqPending l).flag f = s.flag f := rfl
@[simp] theorem State.setIrqPending_pair (l : List Nat) (lo : Reg) : (s.setIrqPending l).pair lo = s.pair lo := rfl
@[simp] theorem State.setIrqPending_ramp (l : List Nat) (q : Ptr) : (s.setIrqPending l).ramp q = s.ramp q := rfl
@[simp] theorem State.setIrqPending_sram (l : List Nat) (a : Nat) : (s.setIrqPending l).sram a = s.sram a := rfl
@[simp] theorem State.setIrqPending_progCell (l : List Nat) (n : Nat) : (s.setIrqPending l).progCell n = s.progCell n := rfl
@[simp] theorem State.setIrqPending_progWord (l : List Nat) (a : Nat) : (s.setIrqPending l).progWord a = s.progWord a := rfl

/-! `State.record` -/
@[simp] theorem State.record_cfg (e : PlatformEvent) : (s.record e).cfg = s.cfg := rfl
@[simp] theorem State.record_regs (e : PlatformEvent) : (s.record e).regs = s.regs := rfl
@[simp] theorem State.record_pc (e : PlatformEvent) : (s.record e).pc = s.pc := rfl
@[simp] theorem State.record_sreg (e : PlatformEvent) : (s.record e).sreg = s.sreg := rfl
@[simp] theorem State.record_sp (e : PlatformEvent) : (s.record e).sp = s.sp := rfl
@[simp] theorem State.record_rampX (e : PlatformEvent) : (s.record e).rampX = s.rampX := rfl
@[simp] theorem State.record_rampY (e : PlatformEvent) : (s.record e).rampY = s.rampY := rfl
@[simp] theorem State.record_rampZ (e : PlatformEvent) : (s.record e).rampZ = s.rampZ := rfl
@[simp] theorem State.record_rampD (e : PlatformEvent) : (s.record e).rampD = s.rampD := rfl
@[simp] theorem State.record_eind (e : PlatformEvent) : (s.record e).eind = s.eind := rfl
@[simp] theorem State.record_data (e : PlatformEvent) : (s.record e).data = s.data := rfl
@[simp] theorem State.record_prog (e : PlatformEvent) : (s.record e).prog = s.prog := rfl
@[simp] theorem State.record_irqInhibit (e : PlatformEvent) : (s.record e).irqInhibit = s.irqInhibit := rfl
@[simp] theorem State.record_run (e : PlatformEvent) : (s.record e).run = s.run := rfl
@[simp] theorem State.record_spmBuffer (e : PlatformEvent) : (s.record e).spmBuffer = s.spmBuffer := rfl
@[simp] theorem State.record_lockBitSet (e : PlatformEvent) : (s.record e).lockBitSet = s.lockBitSet := rfl
@[simp] theorem State.record_jtagenProgrammed (e : PlatformEvent) : (s.record e).jtagenProgrammed = s.jtagenProgrammed := rfl
@[simp] theorem State.record_ocdenProgrammed (e : PlatformEvent) : (s.record e).ocdenProgrammed = s.ocdenProgrammed := rfl
@[simp] theorem State.record_sleepEnabled (e : PlatformEvent) : (s.record e).sleepEnabled = s.sleepEnabled := rfl
@[simp] theorem State.record_irqPending (e : PlatformEvent) : (s.record e).irqPending = s.irqPending := rfl
@[simp] theorem State.record_events (e : PlatformEvent) : (s.record e).events = e :: s.events := rfl
@[simp] theorem State.record_draws (e : PlatformEvent) : (s.record e).draws = s.draws := rfl
@[simp] theorem State.record_reg (e : PlatformEvent) (i : Reg) : (s.record e).reg i = s.reg i := rfl
@[simp] theorem State.record_flag (e : PlatformEvent) (f : Flag) : (s.record e).flag f = s.flag f := rfl
@[simp] theorem State.record_pair (e : PlatformEvent) (lo : Reg) : (s.record e).pair lo = s.pair lo := rfl
@[simp] theorem State.record_ramp (e : PlatformEvent) (q : Ptr) : (s.record e).ramp q = s.ramp q := rfl
@[simp] theorem State.record_sram (e : PlatformEvent) (a : Nat) : (s.record e).sram a = s.sram a := rfl
@[simp] theorem State.record_progCell (e : PlatformEvent) (n : Nat) : (s.record e).progCell n = s.progCell n := rfl
@[simp] theorem State.record_progWord (e : PlatformEvent) (a : Nat) : (s.record e).progWord a = s.progWord a := rfl

/-! `State.countDraw` -/
@[simp] theorem State.countDraw_cfg : s.countDraw.cfg = s.cfg := rfl
@[simp] theorem State.countDraw_regs : s.countDraw.regs = s.regs := rfl
@[simp] theorem State.countDraw_pc : s.countDraw.pc = s.pc := rfl
@[simp] theorem State.countDraw_sreg : s.countDraw.sreg = s.sreg := rfl
@[simp] theorem State.countDraw_sp : s.countDraw.sp = s.sp := rfl
@[simp] theorem State.countDraw_rampX : s.countDraw.rampX = s.rampX := rfl
@[simp] theorem State.countDraw_rampY : s.countDraw.rampY = s.rampY := rfl
@[simp] theorem State.countDraw_rampZ : s.countDraw.rampZ = s.rampZ := rfl
@[simp] theorem State.countDraw_rampD : s.countDraw.rampD = s.rampD := rfl
@[simp] theorem State.countDraw_eind : s.countDraw.eind = s.eind := rfl
@[simp] theorem State.countDraw_data : s.countDraw.data = s.data := rfl
@[simp] theorem State.countDraw_prog : s.countDraw.prog = s.prog := rfl
@[simp] theorem State.countDraw_irqInhibit : s.countDraw.irqInhibit = s.irqInhibit := rfl
@[simp] theorem State.countDraw_run : s.countDraw.run = s.run := rfl
@[simp] theorem State.countDraw_spmBuffer : s.countDraw.spmBuffer = s.spmBuffer := rfl
@[simp] theorem State.countDraw_lockBitSet : s.countDraw.lockBitSet = s.lockBitSet := rfl
@[simp] theorem State.countDraw_jtagenProgrammed : s.countDraw.jtagenProgrammed = s.jtagenProgrammed := rfl
@[simp] theorem State.countDraw_ocdenProgrammed : s.countDraw.ocdenProgrammed = s.ocdenProgrammed := rfl
@[simp] theorem State.countDraw_sleepEnabled : s.countDraw.sleepEnabled = s.sleepEnabled := rfl
@[simp] theorem State.countDraw_irqPending : s.countDraw.irqPending = s.irqPending := rfl
@[simp] theorem State.countDraw_events : s.countDraw.events = s.events := rfl
@[simp] theorem State.countDraw_draws : s.countDraw.draws = s.draws + 1 := rfl
@[simp] theorem State.countDraw_reg (i : Reg) : s.countDraw.reg i = s.reg i := rfl
@[simp] theorem State.countDraw_flag (f : Flag) : s.countDraw.flag f = s.flag f := rfl
@[simp] theorem State.countDraw_pair (lo : Reg) : s.countDraw.pair lo = s.pair lo := rfl
@[simp] theorem State.countDraw_ramp (q : Ptr) : s.countDraw.ramp q = s.ramp q := rfl
@[simp] theorem State.countDraw_sram (a : Nat) : s.countDraw.sram a = s.sram a := rfl
@[simp] theorem State.countDraw_progCell (n : Nat) : s.countDraw.progCell n = s.progCell n := rfl
@[simp] theorem State.countDraw_progWord (a : Nat) : s.countDraw.progWord a = s.progWord a := rfl

/-! `State.writeSreg` -/
@[simp] theorem State.writeSreg_cfg (v : Byte) : (s.writeSreg v).cfg = s.cfg := rfl
@[simp] theorem State.writeSreg_regs (v : Byte) : (s.writeSreg v).regs = s.regs := rfl
@[simp] theorem State.writeSreg_pc (v : Byte) : (s.writeSreg v).pc = s.pc := rfl
@[simp] theorem State.writeSreg_sreg (v : Byte) : (s.writeSreg v).sreg = v := rfl
@[simp] theorem State.writeSreg_sp (v : Byte) : (s.writeSreg v).sp = s.sp := rfl
@[simp] theorem State.writeSreg_rampX (v : Byte) : (s.writeSreg v).rampX = s.rampX := rfl
@[simp] theorem State.writeSreg_rampY (v : Byte) : (s.writeSreg v).rampY = s.rampY := rfl
@[simp] theorem State.writeSreg_rampZ (v : Byte) : (s.writeSreg v).rampZ = s.rampZ := rfl
@[simp] theorem State.writeSreg_rampD (v : Byte) : (s.writeSreg v).rampD = s.rampD := rfl
@[simp] theorem State.writeSreg_eind (v : Byte) : (s.writeSreg v).eind = s.eind := rfl
@[simp] theorem State.writeSreg_data (v : Byte) : (s.writeSreg v).data = s.data := rfl
@[simp] theorem State.writeSreg_prog (v : Byte) : (s.writeSreg v).prog = s.prog := rfl
@[simp] theorem State.writeSreg_irqInhibit (v : Byte) : (s.writeSreg v).irqInhibit = (s.irqInhibit || (getFlag v .I && !getFlag s.sreg .I)) := rfl
@[simp] theorem State.writeSreg_run (v : Byte) : (s.writeSreg v).run = s.run := rfl
@[simp] theorem State.writeSreg_spmBuffer (v : Byte) : (s.writeSreg v).spmBuffer = s.spmBuffer := rfl
@[simp] theorem State.writeSreg_lockBitSet (v : Byte) : (s.writeSreg v).lockBitSet = s.lockBitSet := rfl
@[simp] theorem State.writeSreg_jtagenProgrammed (v : Byte) : (s.writeSreg v).jtagenProgrammed = s.jtagenProgrammed := rfl
@[simp] theorem State.writeSreg_ocdenProgrammed (v : Byte) : (s.writeSreg v).ocdenProgrammed = s.ocdenProgrammed := rfl
@[simp] theorem State.writeSreg_sleepEnabled (v : Byte) : (s.writeSreg v).sleepEnabled = s.sleepEnabled := rfl
@[simp] theorem State.writeSreg_irqPending (v : Byte) : (s.writeSreg v).irqPending = s.irqPending := rfl
@[simp] theorem State.writeSreg_events (v : Byte) : (s.writeSreg v).events = s.events := rfl
@[simp] theorem State.writeSreg_draws (v : Byte) : (s.writeSreg v).draws = s.draws := rfl
@[simp] theorem State.writeSreg_reg (v : Byte) (i : Reg) : (s.writeSreg v).reg i = s.reg i := rfl
@[simp] theorem State.writeSreg_pair (v : Byte) (lo : Reg) : (s.writeSreg v).pair lo = s.pair lo := rfl
@[simp] theorem State.writeSreg_ramp (v : Byte) (q : Ptr) : (s.writeSreg v).ramp q = s.ramp q := rfl
@[simp] theorem State.writeSreg_sram (v : Byte) (a : Nat) : (s.writeSreg v).sram a = s.sram a := rfl
@[simp] theorem State.writeSreg_progCell (v : Byte) (n : Nat) : (s.writeSreg v).progCell n = s.progCell n := rfl
@[simp] theorem State.writeSreg_progWord (v : Byte) (a : Nat) : (s.writeSreg v).progWord a = s.progWord a := rfl

/-! `State.setRampD` -/
@[simp] theorem State.setRampD_cfg (v : Byte) : (s.setRampD v).cfg = s.cfg := rfl
@[simp] theorem State.setRampD_regs (v : Byte) : (s.setRampD v).regs = s.regs := rfl
@[simp] theorem State.setRampD_pc (v : Byte) : (s.setRampD v).pc = s.pc := rfl
@[simp] theorem State.setRampD_sreg (v : Byte) : (s.setRampD v).sreg = s.sreg := rfl
@[simp] theorem State.setRampD_sp (v : Byte) : (s.setRampD v).sp = s.sp := rfl
@[simp] theorem State.setRampD_rampX (v : Byte) : (s.setRampD v).rampX = s.rampX := rfl
@[simp] theorem State.setRampD_rampY (v : Byte) : (s.setRampD v).rampY = s.rampY := rfl
@[simp] theorem State.setRampD_rampZ (v : Byte) : (s.setRampD v).rampZ = s.rampZ := rfl
@[simp] theorem State.setRampD_rampD (v : Byte) : (s.setRampD v).rampD = v := rfl
@[simp] theorem State.setRampD_eind (v : Byte) : (s.setRampD v).eind = s.eind := rfl
@[simp] theorem State.setRampD_data (v : Byte) : (s.setRampD v).data = s.data := rfl
@[simp] theorem State.setRampD_prog (v : Byte) : (s.setRampD v).prog = s.prog := rfl
@[simp] theorem State.setRampD_irqInhibit (v : Byte) : (s.setRampD v).irqInhibit = s.irqInhibit := rfl
@[simp] theorem State.setRampD_run (v : Byte) : (s.setRampD v).run = s.run := rfl
@[simp] theorem State.setRampD_spmBuffer (v : Byte) : (s.setRampD v).spmBuffer = s.spmBuffer := rfl
@[simp] theorem State.setRampD_lockBitSet (v : Byte) : (s.setRampD v).lockBitSet = s.lockBitSet := rfl
@[simp] theorem State.setRampD_jtagenProgrammed (v : Byte) : (s.setRampD v).jtagenProgrammed = s.jtagenProgrammed := rfl
@[simp] theorem State.setRampD_ocdenProgrammed (v : Byte) : (s.setRampD v).ocdenProgrammed = s.ocdenProgrammed := rfl
@[simp] theorem State.setRampD_sleepEnabled (v : Byte) : (s.setRampD v).sleepEnabled = s.sleepEnabled := rfl
@[simp] theorem State.setRampD_irqPending (v : Byte) : (s.setRampD v).irqPending = s.irqPending := rfl
@[simp] theorem State.setRampD_events (v : Byte) : (s.setRampD v).events = s.events := rfl
@[simp] theorem State.setRampD_draws (v : Byte) : (s.setRampD v).draws = s.draws := rfl
@[simp] theorem State.setRampD_reg (v : Byte) (i : Reg) : (s.setRampD v).reg i = s.reg i := rfl
@[simp] theorem State.setRampD_flag (v : Byte) (f : Flag) : (s.setRampD v).flag f = s.flag f := rfl
@[simp] theorem State.setRampD_pair (v : Byte) (lo : Reg) : (s.setRampD v).pair lo = s.pair lo := rfl
@[simp] theorem State.setRampD_ramp (v : Byte) (q : Ptr) : (s.setRampD v).ramp q = s.ramp q := rfl
@[simp] theorem State.setRampD_sram (v : Byte) (a : Nat) : (s.setRampD v).sram a = s.sram a := rfl
@[simp] theorem State.setRampD_progCell (v : Byte) (n : Nat) : (s.setRampD v).progCell n = s.progCell n := rfl
@[simp] theorem State.setRampD_progWord (v : Byte) (a : Nat) : (s.setRampD v).progWord a = s.progWord a := rfl

/-! `State.setEind` -/
@[simp] theorem State.setEind_cfg (v : Byte) : (s.setEind v).cfg = s.cfg := rfl
@[simp] theorem State.setEind_regs (v : Byte) : (s.setEind v).regs = s.regs := rfl
@[simp] theorem State.setEind_pc (v : Byte) : (s.setEind v).pc = s.pc := rfl
@[simp] theorem State.setEind_sreg (v : Byte) : (s.setEind v).sreg = s.sreg := rfl
@[simp] theorem State.setEind_sp (v : Byte) : (s.setEind v).sp = s.sp := rfl
@[simp] theorem State.setEind_rampX (v : Byte) : (s.setEind v).rampX = s.rampX := rfl
@[simp] theorem State.setEind_rampY (v : Byte) : (s.setEind v).rampY = s.rampY := rfl
@[simp] theorem State.setEind_rampZ (v : Byte) : (s.setEind v).rampZ = s.rampZ := rfl
@[simp] theorem State.setEind_rampD (v : Byte) : (s.setEind v).rampD = s.rampD := rfl
@[simp] theorem State.setEind_eind (v : Byte) : (s.setEind v).eind = v := rfl
@[simp] theorem State.setEind_data (v : Byte) : (s.setEind v).data = s.data := rfl
@[simp] theorem State.setEind_prog (v : Byte) : (s.setEind v).prog = s.prog := rfl
@[simp] theorem State.setEind_irqInhibit (v : Byte) : (s.setEind v).irqInhibit = s.irqInhibit := rfl
@[simp] theorem State.setEind_run (v : Byte) : (s.setEind v).run = s.run := rfl
@[simp] theorem State.setEind_spmBuffer (v : Byte) : (s.setEind v).spmBuffer = s.spmBuffer := rfl
@[simp] theorem State.setEind_lockBitSet (v : Byte) : (s.setEind v).lockBitSet = s.lockBitSet := rfl
@[simp] theorem State.setEind_jtagenProgrammed (v : Byte) : (s.setEind v).jtagenProgrammed = s.jtagenProgrammed := rfl
@[simp] theorem State.setEind_ocdenProgrammed (v : Byte) : (s.setEind v).ocdenProgrammed = s.ocdenProgrammed := rfl
@[simp] theorem State.setEind_sleepEnabled (v : Byte) : (s.setEind v).sleepEnabled = s.sleepEnabled := rfl
@[simp] theorem State.setEind_irqPending (v : Byte) : (s.setEind v).irqPending = s.irqPending := rfl
@[simp] theorem State.setEind_events (v : Byte) : (s.setEind v).events = s.events := rfl
@[simp] theorem State.setEind_draws (v : Byte) : (s.setEind v).draws = s.draws := rfl
@[simp] theorem State.setEind_reg (v : Byte) (i : Reg) : (s.setEind v).reg i = s.reg i := rfl
@[simp] theorem State.setEind_flag (v : Byte) (f : Flag) : (s.setEind v).flag f = s.flag f := rfl
@[simp] theorem State.setEind_pair (v : Byte) (lo : Reg) : (s.setEind v).pair lo = s.pair lo := rfl
@[simp] theorem State.setEind_ramp (v : Byte) (q : Ptr) : (s.setEind v).ramp q = s.ramp q := rfl
@[simp] theorem State.setEind_sram (v : Byte) (a : Nat) : (s.setEind v).sram a = s.sram a := rfl
@[simp] theorem State.setEind_progCell (v : Byte) (n : Nat) : (s.setEind v).progCell n = s.progCell n := rfl
@[simp] theorem State.setEind_progWord (v : Byte) (a : Nat) : (s.setEind v).progWord a = s.progWord a := rfl

/-! `State.setSleepEnabled` -/
@[simp] theorem State.setSleepEnabled_cfg (b : Bool) : (s.setSleepEnabled b).cfg = s.cfg := rfl
@[simp] theorem State.setSleepEnabled_regs (b : Bool) : (s.setSleepEnabled b).regs = s.regs := rfl
@[simp] theorem State.setSleepEnabled_pc (b : Bool) : (s.setSleepEnabled b).pc = s.pc := rfl
@[simp] theorem State.setSleepEnabled_sreg (b : Bool) : (s.setSleepEnabled b).sreg = s.sreg := rfl
@[simp] theorem State.setSleepEnabled_sp (b : Bool) : (s.setSleepEnabled b).sp = s.sp := rfl
@[simp] theorem State.setSleepEnabled_rampX (b : Bool) : (s.setSleepEnabled b).rampX = s.rampX := rfl
@[simp] theorem State.setSleepEnabled_rampY (b : Bool) : (s.setSleepEnabled b).rampY = s.rampY := rfl
@[simp] theorem State.setSleepEnabled_rampZ (b : Bool) : (s.setSleepEnabled b).rampZ = s.rampZ := rfl
@[simp] theorem State.setSleepEnabled_rampD (b : Bool) : (s.setSleepEnabled b).rampD = s.rampD := rfl
@[simp] theorem State.setSleepEnabled_eind (b : Bool) : (s.setSleepEnabled b).eind = s.eind := rfl
@[simp] theorem State.setSleepEnabled_data (b : Bool) : (s.setSleepEnabled b).data = s.data := rfl
@[simp] theorem State.setSleepEnabled_prog (b : Bool) : (s.setSleepEnabled b).prog = s.prog := rfl
@[simp] theorem State.setSleepEnabled_irqInhibit (b : Bool) : (s.setSleepEnabled b).irqInhibit = s.irqInhibit := rfl
@[simp] theorem State.setSleepEnabled_run (b : Bool) : (s.setSleepEnabled b).run = s.run := rfl
@[simp] theorem State.setSleepEnabled_spmBuffer (b : Bool) : (s.setSleepEnabled b).spmBuffer = s.spmBuffer := rfl
@[simp] theorem State.setSleepEnabled_lockBitSet (b : Bool) : (s.setSleepEnabled b).lockBitSet = s.lockBitSet := rfl
@[simp] theorem State.setSleepEnabled_jtagenProgrammed (b : Bool) : (s.setSleepEnabled b).jtagenProgrammed = s.jtagenProgrammed := rfl
@[simp] theorem State.setSleepEnabled_ocdenProgrammed (b : Bool) : (s.setSleepEnabled b).ocdenProgrammed = s.ocdenProgrammed := rfl
@[simp] theorem State.setSleepEnabled_sleepEnabled (b : Bool) : (s.setSleepEnabled b).sleepEnabled = b := rfl
@[simp] theorem State.setSleepEnabled_irqPending (b : Bool) : (s.setSleepEnabled b).irqPending = s.irqPending := rfl
@[simp] theorem State.setSleepEnabled_events (b : Bool) : (s.setSleepEnabled b).events = s.events := rfl
@[simp] theorem State.setSleepEnabled_draws (b : Bool) : (s.setSleepEnabled b).draws = s.draws := rfl
@[simp] theorem State.setSleepEnabled_reg (b : Bool) (i : Reg) : (s.setSleepEnabled b).reg i = s.reg i := rfl
@[simp] theorem State.setSleepEnabled_flag (b : Bool) (f : Flag) : (s.setSleepEnabled b).flag f = s.flag f := rfl
@[simp] theorem State.setSleepEnabled_pair (b : Bool) (lo : Reg) : (s.setSleepEnabled b).pair lo = s.pair lo := rfl
@[simp] theorem State.setSleepEnabled_ramp (b : Bool) (q : Ptr) : (s.setSleepEnabled b).ramp q = s.ramp q := rfl
@[simp] theorem State.setSleepEnabled_sram (b : Bool) (a : Nat) : (s.setSleepEnabled b).sram a = s.sram a := rfl
@[simp] theorem State.setSleepEnabled_progCell (b : Bool) (n : Nat) : (s.setSleepEnabled b).progCell n = s.progCell n := rfl
@[simp] theorem State.setSleepEnabled_progWord (b : Bool) (a : Nat) : (s.setSleepEnabled b).progWord a = s.progWord a := rfl

/-! `State.setRamp` -/
@[simp] theorem State.setRamp_cfg (p : Ptr) (v : Byte) : (s.setRamp p v).cfg = s.cfg := by cases p <;> rfl
@[simp] theorem State.setRamp_regs (p : Ptr) (v : Byte) : (s.setRamp p v).regs = s.regs := by cases p <;> rfl
@[simp] theorem State.setRamp_pc (p : Ptr) (v : Byte) : (s.setRamp p v).pc = s.pc := by cases p <;> rfl
@[simp] theorem State.setRamp_sreg (p : Ptr) (v : Byte) : (s.setRamp p v).sreg = s.sreg := by cases p <;> rfl
@[simp] theorem State.setRamp_sp (p : Ptr) (v : Byte) : (s.setRamp p v).sp = s.sp := by cases p <;> rfl
@[simp] theorem State.setRamp_rampD (p : Ptr) (v : Byte) : (s.setRamp p v).rampD = s.rampD := by cases p <;> rfl
@[simp] theorem State.setRamp_eind (p : Ptr) (v : Byte) : (s.setRamp p v).eind = s.eind := by cases p <;> rfl
@[simp] theorem State.setRamp_data (p : Ptr) (v : Byte) : (s.setRamp p v).data = s.data := by cases p <;> rfl
@[simp] theorem State.setRamp_prog (p : Ptr) (v : Byte) : (s.setRamp p v).prog = s.prog := by cases p <;> rfl
@[simp] theorem State.setRamp_irqInhibit (p : Ptr) (v : Byte) : (s.setRamp p v).irqInhibit = s.irqInhibit := by cases p <;> rfl
@[simp] theorem State.setRamp_run (p : Ptr) (v : Byte) : (s.setRamp p v).run = s.run := by cases p <;> rfl
@[simp] theorem State.setRamp_spmBuffer (p : Ptr) (v : Byte) : (s.setRamp p v).spmBuffer = s.spmBuffer := by cases p <;> rfl
@[simp] theorem State.setRamp_lockBitSet (p : Ptr) (v : Byte) : (s.setRamp p v).lockBitSet = s.lockBitSet := by cases p <;> rfl
@[simp] theorem State.setRamp_jtagenProgrammed (p : Ptr) (v : Byte) : (s.setRamp p v).jtagenProgrammed = s.jtagenProgrammed := by cases p <;> rfl
@[simp] theorem State.setRamp_ocdenProgrammed (p : Ptr) (v : Byte) : (s.setRamp p v).ocdenProgrammed = s.ocdenProgrammed := by cases p <;> rfl
@[simp] theorem State.setRamp_sleepEnabled (p : Ptr) (v : Byte) : (s.setRamp p v).sleepEnabled = s.sleepEnabled := by cases p <;> rfl
@[simp] theorem State.setRamp_irqPending (p : Ptr) (v : Byte) : (s.setRamp p v).irqPending = s.irqPending := by cases p <;> rfl
@[simp] theorem State.setRamp_events (p : Ptr) (v : Byte) : (s.setRamp p v).events = s.events := by cases p <;> rfl
@[simp] theorem State.setRamp_draws (p : Ptr) (v : Byte) : (s.setRamp p v).draws = s.draws := by cases p <;> rfl
@[simp] theorem State.setRamp_reg (p : Ptr) (v : Byte) (i : Reg) : (s.setRamp p v).reg i = s.reg i := by cases p <;> rfl
@[simp] theorem State.setRamp_flag (p : Ptr) (v : Byte) (f : Flag) : (s.setRamp p v).flag f = s.flag f := by cases p <;> rfl
@[simp] theorem State.setRamp_pair (p : Ptr) (v : Byte) (lo : Reg) : (s.setRamp p v).pair lo = s.pair lo := by cases p <;> rfl
@[simp] theorem State.setRamp_sram (p : Ptr) (v : Byte) (a : Nat) : (s.setRamp p v).sram a = s.sram a := by cases p <;> rfl
@[simp] theorem State.setRamp_progCell (p : Ptr) (v : Byte) (n : Nat) : (s.setRamp p v).progCell n = s.progCell n := by cases p <;> rfl
@[simp] theorem State.setRamp_progWord (p : Ptr) (v : Byte) (a : Nat) : (s.setRamp p v).progWord a = s.progWord a := by cases p <;> rfl

/-! `State.setPair` -/
@[simp] theorem State.setPair_cfg (lo : Reg) (v : Word) : (s.setPair lo v).cfg = s.cfg := rfl
@[simp] theorem State.setPair_pc (lo : Reg) (v : Word) : (s.setPair lo v).pc = s.pc := rfl
@[simp] theorem State.setPair_sreg (lo : Reg) (v : Word) : (s.setPair lo v).sreg = s.sreg := rfl
@[simp] theorem State.setPair_sp (lo : Reg) (v : Word) : (s.setPair lo v).sp = s.sp := rfl
@[simp] theorem State.setPair_rampX (lo : Reg) (v : Word) : (s.setPair lo v).rampX = s.rampX := rfl
@[simp] theorem State.setPair_rampY (lo : Reg) (v : Word) : (s.setPair lo v).rampY = s.rampY := rfl
@[simp] theorem State.setPair_rampZ (lo : Reg) (v : Word) : (s.setPair lo v).rampZ = s.rampZ := rfl
@[simp] theorem State.setPair_rampD (lo : Reg) (v : Word) : (s.setPair lo v).rampD = s.rampD := rfl
@[simp] theorem State.setPair_eind (lo : Reg) (v : Word) : (s.setPair lo v).eind = s.eind := rfl
@[simp] theorem State.setPair_data (lo : Reg) (v : Word) : (s.setPair lo v).data = s.data := rfl
@[simp] theorem State.setPair_prog (lo : Reg) (v : Word) : (s.setPair lo v).prog = s.prog := rfl
@[simp] theorem State.setPair_irqInhibit (lo : Reg) (v : Word) : (s.setPair lo v).irqInhibit = s.irqInhibit := rfl
@[simp] theorem State.setPair_run (lo : Reg) (v : Word) : (s.setPair lo v).run = s.run := rfl
@[simp] theorem State.setPair_spmBuffer (lo : Reg) (v : Word) : (s.setPair lo v).spmBuffer = s.spmBuffer := rfl
@[simp] theorem State.setPair_lockBitSet (lo : Reg) (v : Word) : (s.setPair lo v).lockBitSet = s.lockBitSet := rfl
@[simp] theorem State.setPair_jtagenProgrammed (lo : Reg) (v : Word) : (s.setPair lo v).jtagenProgrammed = s.jtagenProgrammed := rfl
@[simp] theorem State.setPair_ocdenProgrammed (lo : Reg) (v : Word) : (s.setPair lo v).ocdenProgrammed = s.ocdenProgrammed := rfl
@[simp] theorem State.setPair_sleepEnabled (lo : Reg) (v : Word) : (s.setPair lo v).sleepEnabled = s.sleepEnabled := rfl
@[simp] theorem State.setPair_irqPending (lo : Reg) (v : Word) : (s.setPair lo v).irqPending = s.irqPending := rfl
@[simp] theorem State.setPair_events (lo : Reg) (v : Word) : (s.setPair lo v).events = s.events := rfl
@[simp] theorem State.setPair_draws (lo : Reg) (v : Word) : (s.setPair lo v).draws = s.draws := rfl
@[simp] theorem State.setPair_flag (lo : Reg) (v : Word) (f : Flag) : (s.setPair lo v).flag f = s.flag f := rfl
@[simp] theorem State.setPair_ramp (lo : Reg) (v : Word) (q : Ptr) : (s.setPair lo v).ramp q = s.ramp q := rfl
@[simp] theorem State.setPair_sram (lo : Reg) (v : Word) (a : Nat) : (s.setPair lo v).sram a = s.sram a := rfl
@[simp] theorem State.setPair_progCell (lo : Reg) (v : Word) (n : Nat) : (s.setPair lo v).progCell n = s.progCell n := rfl
@[simp] theorem State.setPair_progWord (lo : Reg) (v : Word) (a : Nat) : (s.setPair lo v).progWord a = s.progWord a := rfl

/-! `State.advance` -/
@[simp] theorem State.advance_cfg (m : Nat) : (s.advance m).cfg = s.cfg := rfl
@[simp] theorem State.advance_regs (m : Nat) : (s.advance m).regs = s.regs := rfl
@[simp] theorem State.advance_pc (m : Nat) : (s.advance m).pc = pcAdd s.cfg s.pc m := rfl
@[simp] theorem State.advance_sreg (m : Nat) : (s.advance m).sreg = s.sreg := rfl
@[simp] theorem State.advance_sp (m : Nat) : (s.advance m).sp = s.sp := rfl
@[simp] theorem State.advance_rampX (m : Nat) : (s.advance m).rampX = s.rampX := rfl
@[simp] theorem State.advance_rampY (m : Nat) : (s.advance m).rampY = s.rampY := rfl
@[simp] theorem State.advance_rampZ (m : Nat) : (s.advance m).rampZ = s.rampZ := rfl
@[simp] theorem State.advance_rampD (m : Nat) : (s.advance m).rampD = s.rampD := rfl
@[simp] theorem State.advance_eind (m : Nat) : (s.advance m).eind = s.eind := rfl
@[simp] theorem State.advance_data (m : Nat) : (s.advance m).data = s.data := rfl
@[simp] theorem State.advance_prog (m : Nat) : (s.advance m).prog = s.prog := rfl
@[simp] theorem State.advance_irqInhibit (m : Nat) : (s.advance m).irqInhibit = s.irqInhibit := rfl
@[simp] theorem State.advance_run (m : Nat) : (s.advance m).run = s.run := rfl
@[simp] theorem State.advance_spmBuffer (m : Nat) : (s.advance m).spmBuffer = s.spmBuffer := rfl
@[simp] theorem State.advance_lockBitSet (m : Nat) : (s.advance m).lockBitSet = s.lockBitSet := rfl
@[simp] theorem State.advance_jtagenProgrammed (m : Nat) : (s.advance m).jtagenProgrammed = s.jtagenProgrammed := rfl
@[simp] theorem State.advance_ocdenProgrammed (m : Nat) : (s.advance m).ocdenProgrammed = s.ocdenProgrammed := rfl
@[simp] theorem State.advance_sleepEnabled (m : Nat) : (s.advance m).sleepEnabled = s.sleepEnabled := rfl
@[simp] theorem State.advance_irqPending (m : Nat) : (s.advance m).irqPending = s.irqPending := rfl
@[simp] theorem State.advance_events (m : Nat) : (s.advance m).events = s.events := rfl
@[simp] theorem State.advance_draws (m : Nat) : (s.advance m).draws = s.draws := rfl
@[simp] theorem State.advance_reg (m : Nat) (i : Reg) : (s.advance m).reg i = s.reg i := rfl
@[simp] theorem State.advance_flag (m : Nat) (f : Flag) : (s.advance m).flag f = s.flag f := rfl
@[simp] theorem State.advance_pair (m : Nat) (lo : Reg) : (s.advance m).pair lo = s.pair lo := rfl
@[simp] theorem State.advance_ramp (m : Nat) (q : Ptr) : (s.advance m).ramp q = s.ramp q := rfl
@[simp] theorem State.advance_sram (m : Nat) (a : Nat) : (s.advance m).sram a = s.sram a := rfl
@[simp] theorem State.advance_progCell (m : Nat) (n : Nat) : (s.advance m).progCell n = s.progCell n := rfl
@[simp] theorem State.advance_progWord (m : Nat) (a : Nat) : (s.advance m).progWord a = s.progWord a := rfl

/-! `State.branch` -/
@[simp] theorem State.branch_cfg (c : Bool) (k : Int) : (s.branch c k).cfg = s.cfg := rfl
@[simp] theorem State.branch_regs (c : Bool) (k : Int) : (s.branch c k).regs = s.regs := rfl
@[simp] theorem State.branch_pc (c : Bool) (k : Int) : (s.branch c k).pc = pcAdd s.cfg s.pc (if c then k + 1 else 1) := rfl
@[simp] theorem State.branch_sreg (c : Bool) (k : Int) : (s.branch c k).sreg = s.sreg := rfl
@[simp] theorem State.branch_sp (c : Bool) (k : Int) : (s.branch c k).sp = s.sp := rfl
@[simp] theorem State.branch_rampX (c : Bool) (k : Int) : (s.branch c k).rampX = s.rampX := rfl
@[simp] theorem State.branch_rampY (c : Bool) (k : Int) : (s.branch c k).rampY = s.rampY := rfl
@[simp] theorem State.branch_rampZ (c : Bool) (k : Int) : (s.branch c k).rampZ = s.rampZ := rfl
@[simp] theorem State.branch_rampD (c : Bool) (k : Int) : (s.branch c k).rampD = s.rampD := rfl
@[simp] theorem State.branch_eind (c : Bool) (k : Int) : (s.branch c k).eind = s.eind := rfl
@[simp] theorem State.branch_data (c : Bool) (k : Int) : (s.branch c k).data = s.data := rfl
@[simp] theorem State.branch_prog (c : Bool) (k : Int) : (s.branch c k).prog = s.prog := rfl
@[simp] theorem State.branch_irqInhibit (c : Bool) (k : Int) : (s.branch c k).irqInhibit = s.irqInhibit := rfl
@[simp] theorem State.branch_run (c : Bool) (k : Int) : (s.branch c k).run = s.run := rfl
@[simp] theorem State.branch_spmBuffer (c : Bool) (k : Int) : (s.branch c k).spmBuffer = s.spmBuffer := rfl
@[simp] theorem State.branch_lockBitSet (c : Bool) (k : Int) : (s.branch c k).lockBitSet = s.lockBitSet := rfl
@[simp] theorem State.branch_jtagenProgrammed (c : Bool) (k : Int) : (s.branch c k).jtagenProgrammed = s.jtagenProgrammed := rfl
@[simp] theorem State.branch_ocdenProgrammed (c : Bool) (k : Int) : (s.branch c k).ocdenProgrammed = s.ocdenProgrammed := rfl
@[simp] theorem State.branch_sleepEnabled (c : Bool) (k : Int) : (s.branch c k).sleepEnabled = s.sleepEnabled := rfl
@[simp] theorem State.branch_irqPending (c : Bool) (k : Int) : (s.branch c k).irqPending = s.irqPending := rfl
@[simp] theorem State.branch_events (c : Bool) (k : Int) : (s.branch c k).events = s.events := rfl
@[simp] theorem State.branch_draws (c : Bool) (k : Int) : (s.branch c k).draws = s.draws := rfl
@[simp] theorem State.branch_reg (c : Bool) (k : Int) (i : Reg) : (s.branch c k).reg i = s.reg i := rfl
@[simp] theorem State.branch_flag (c : Bool) (k : Int) (f : Flag) : (s.branch c k).flag f = s.flag f := rfl
@[simp] theorem State.branch_pair (c : Bool) (k : Int) (lo : Reg) : (s.branch c k).pair lo = s.pair lo := rfl
@[simp] theorem State.branch_ramp (c : Bool) (k : Int) (q : Ptr) : (s.branch c k).ramp q = s.ramp q := rfl
@[simp] theorem State.branch_sram (c : Bool) (k : Int) (a : Nat) : (s.branch c k).sram a = s.sram a := rfl
@[simp] theorem State.branch_progCell (c : Bool) (k : Int) (n : Nat) : (s.branch c k).progCell n = s.progCell n := rfl
@[simp] theorem State.branch_progWord (c : Bool) (k : Int) (a : Nat) : (s.branch c k).progWord a = s.progWord a := rfl

end Sys2Proof.Machine
end

