-- ==== Sys2Proof/Laws/Registers.lean ====
section
/-! SUPPORT. The read of a register, a pair, a RAMP register or a flag after its own update (spec/10_state.md R21, R22,
R25, R37). -/

namespace Sys2Proof.Machine

/-- A register write is read back, and every other register reads as before. -/
theorem State.reg_setReg (s : State) (r i : Reg) (v : Byte) : (s.setReg r v).reg i = if i = r then v else s.reg i := by
  simp only [State.reg, State.setReg]
  by_cases h : i = r
  · subst h
    simp [Vector.get_eq_getElem]
  · have : r.val ≠ i.val := fun hv => h (Fin.ext hv.symm)
    simp [Vector.get_eq_getElem, h, Vector.getElem_set_ne, this]

@[simp] theorem State.reg_setReg_self (s : State) (r : Reg) (v : Byte) : (s.setReg r v).reg r = v := by
  simp [State.reg_setReg]

theorem State.reg_setReg_of_ne (s : State) (r i : Reg) (v : Byte) (h : i ≠ r) : (s.setReg r v).reg i = s.reg i := by
  simp [State.reg_setReg, h]

/-- The two registers of a pair differ. -/
theorem pair_ne (lo : Reg) : lo ≠ lo + 1 := by revert lo; decide

@[simp] theorem State.reg_setPair_low (s : State) (lo : Reg) (v : Word) :
    (s.setPair lo v).reg lo = v.extractLsb' 0 8 := by
  simp [State.setPair, State.reg_setReg, pair_ne lo]

@[simp] theorem State.reg_setPair_high (s : State) (lo : Reg) (v : Word) :
    (s.setPair lo v).reg (lo + 1) = v.extractLsb' 8 8 := by
  simp [State.setPair]

theorem State.reg_setPair_of_ne (s : State) (lo i : Reg) (v : Word) (h1 : i ≠ lo) (h2 : i ≠ lo + 1) :
    (s.setPair lo v).reg i = s.reg i := by
  simp [State.setPair, State.reg_setReg, h1, h2]

@[simp] theorem State.pair_setPair_self (s : State) (lo : Reg) (v : Word) : (s.setPair lo v).pair lo = v := by
  simp only [State.pair, State.reg_setPair_low, State.reg_setPair_high]
  ext i hi
  simp only [BitVec.getElem_append, BitVec.getElem_extractLsb']
  rw [← BitVec.getLsbD_eq_getElem (by omega)]
  by_cases h : i < 8
  · simp [h]
  · have h8 : 8 + (i - 8) = i := by omega
    simp [h, h8]

/-- A RAMP write is read back, and the other RAMP registers read as before. -/
theorem State.ramp_setRamp (s : State) (p q : Ptr) (v : Byte) :
    (s.setRamp p v).ramp q = if q = p then v else s.ramp q := by
  cases p <;> cases q <;> rfl

@[simp] theorem State.ramp_setRamp_self (s : State) (p : Ptr) (v : Byte) : (s.setRamp p v).ramp p = v := by
  simp [State.ramp_setRamp]

@[simp] theorem State.flag_setSreg (s : State) (v : Byte) (f : Flag) : (s.setSreg v).flag f = getFlag v f := rfl

@[simp] theorem State.flag_writeSreg (s : State) (v : Byte) (f : Flag) : (s.writeSreg v).flag f = getFlag v f := rfl

/-- SREG is its eight flags (R25). -/
theorem sreg_eq_iff (x y : Byte) : x = y ↔ ∀ f, getFlag x f = getFlag y f := by
  refine ⟨fun h f => by rw [h], fun h => ?_⟩
  ext i hi
  simp only [← BitVec.getLsbD_eq_getElem]
  have h0 := h .C
  have h1 := h .Z
  have h2 := h .N
  have h3 := h .V
  have h4 := h .S
  have h5 := h .H
  have h6 := h .T
  have h7 := h .I
  simp only [getFlag, Flag.bit] at h0 h1 h2 h3 h4 h5 h6 h7
  interval_cases i <;> assumption

/-! ### Writing flags -/

theorem getLsbD_putBit (x : Byte) (i j : Nat) (b : Bool) (hi : i < 8) :
    (putBit x i b).getLsbD j = if j = i then b else x.getLsbD j := by
  unfold putBit
  by_cases h : j = i
  · subst h
    cases b <;> simp [hi]
  · by_cases h8 : j < 8
    · have h1 : ¬ (i ≤ j ∧ j - i = 0) := by omega
      cases b <;> simp [h, h8] <;> intros <;> omega
    · cases b <;> simp [h, BitVec.getLsbD_of_ge _ _ (Nat.le_of_not_lt h8)]

/-- A flag write is read back, and every other flag reads as before. -/
@[simp] theorem getFlag_putFlag (x : Byte) (f g : Flag) (b : Bool) :
    getFlag (putFlag x f b) g = if g = f then b else getFlag x g := by
  have hf : f.bit < 8 := by cases f <;> decide
  have hb : g.bit = f.bit ↔ g = f := by cases f <;> cases g <;> decide
  simp [getFlag, putFlag, getLsbD_putBit _ _ _ _ hf, hb]

/-- What each flag reads after the four of a logical result are written. -/
theorem getFlag_putSVNZ (x : Byte) (v n z : Bool) (f : Flag) :
    getFlag (putSVNZ x v n z) f =
      match f with
      | .Z => z
      | .N => n
      | .V => v
      | .S => n ^^ v
      | f => getFlag x f := by
  cases f <;> simp [putSVNZ]

/-- What each flag reads after S, V, N, Z and C are written. -/
theorem getFlag_putSVNZC (x : Byte) (v n z c : Bool) (f : Flag) :
    getFlag (putSVNZC x v n z c) f =
      match f with
      | .C => c
      | .Z => z
      | .N => n
      | .V => v
      | .S => n ^^ v
      | f => getFlag x f := by
  cases f <;> simp [putSVNZC, putSVNZ]

/-- What each flag reads after H, S, V, N, Z and C are written. -/
theorem getFlag_putHSVNZC (x : Byte) (h v n z c : Bool) (f : Flag) :
    getFlag (putHSVNZC x h v n z c) f =
      match f with
      | .C => c
      | .Z => z
      | .N => n
      | .V => v
      | .S => n ^^ v
      | .H => h
      | f => getFlag x f := by
  cases f <;> simp [putHSVNZC, putSVNZC, putSVNZ]

end Sys2Proof.Machine
end

