-- ==== Sys2Proof/Laws/Frames.lean ====
section
/-! SUPPORT. Frames: how they compose, the frame of each update of a state, and where a moved pc stands (spec/10_state.md
R32, R35). -/

namespace Sys2Proof.Machine

/-! ### Composition -/

theorem Part.same_refl (p : Part) (s : State) : p.same s s := by cases p <;> rfl

theorem Part.same_trans (p : Part) (s t u : State) (h1 : p.same s t) (h2 : p.same t u) : p.same s u := by
  cases p <;> exact Eq.trans h2 h1

@[simp] theorem Frame.refl (l : List Part) (s : State) : Frame l s s := fun p _ => p.same_refl s

/-- A frame holds for every longer list of exceptions. -/
theorem Frame.mono {l m : List Part} {s t : State} (h : Frame l s t) (hm : ∀ p ∈ l, p ∈ m) : Frame m s t :=
  fun p hp => h p fun hl => hp (hm p hl)

/-- Frames compose, the exceptions joined. -/
theorem Frame.trans {l m : List Part} {s t u : State} (h1 : Frame l s t) (h2 : Frame m t u) : Frame (l ++ m) s u :=
  fun p hp =>
    p.same_trans s t u (h1 p fun h => hp (List.mem_append.2 (.inl h))) (h2 p fun h => hp (List.mem_append.2 (.inr h)))

/-- Frames with the same exceptions compose. -/
theorem Frame.trans_same {l : List Part} {s t u : State} (h1 : Frame l s t) (h2 : Frame l t u) : Frame l s u :=
  fun p hp => p.same_trans s t u (h1 p hp) (h2 p hp)

/-- No part but the exceptions changes: the configuration. -/
theorem Frame.cfg_eq {l : List Part} {s t : State} (h : Frame l s t) (hl : Part.cfg ∉ l) : t.cfg = s.cfg := h .cfg hl

theorem Frame.sp_eq {l : List Part} {s t : State} (h : Frame l s t) (hl : Part.sp ∉ l) : t.sp = s.sp := h .sp hl

theorem Frame.sram_eq {l : List Part} {s t : State} (h : Frame l s t) (a : Nat) (hl : Part.sram a ∉ l) :
    t.sram a = s.sram a := h (.sram a) hl

theorem Frame.reg_eq {l : List Part} {s t : State} (h : Frame l s t) (i : Reg) (hl : Part.reg i ∉ l) :
    t.reg i = s.reg i := h (.reg i) hl

/-! ### The frame of each update -/

theorem Frame.setReg (s : State) (r : Reg) (v : Byte) : Frame [.reg r] s (s.setReg r v) := by
  intro p hp
  cases p with
  | reg i => exact State.reg_setReg_of_ne s r i v (by simpa using hp)
  | _ => rfl

theorem Frame.setPair (s : State) (lo : Reg) (v : Word) : Frame [.reg lo, .reg (lo + 1)] s (s.setPair lo v) :=
  (Frame.setReg s lo _).trans (Frame.setReg _ (lo + 1) _)

theorem Frame.setPc (s : State) (v : PcWord) : Frame [] s (s.setPc v) := by
  intro p _
  cases p <;> rfl

theorem Frame.advance (s : State) (n : Nat) : Frame [] s (s.advance n) := Frame.setPc s _

/-- A new SREG: the flags that keep their value need not be excepted. -/
theorem Frame.setSreg (s : State) (v : Byte) (l : List Part)
    (h : ∀ f, Part.flag f ∉ l → getFlag v f = getFlag s.sreg f) : Frame l s (s.setSreg v) := by
  intro p hp
  cases p with
  | flag f => exact h f hp
  | _ => rfl

theorem Frame.setSp (s : State) (v : BitVec 16) : Frame [.sp] s (s.setSp v) := by
  intro p hp
  cases p with
  | sp => simp at hp
  | _ => rfl

theorem Frame.setInhibit (s : State) (b : Bool) : Frame [.inhibit] s (s.setInhibit b) := by
  intro p hp
  cases p with
  | inhibit => simp at hp
  | _ => rfl

theorem Frame.setRun (s : State) (r : Run) : Frame [.run] s (s.setRun r) := by
  intro p hp
  cases p with
  | run => simp at hp
  | _ => rfl

theorem Frame.setIrqPending (s : State) (l : List Nat) : Frame [.irqPending] s (s.setIrqPending l) := by
  intro p hp
  cases p with
  | irqPending => simp at hp
  | _ => rfl

theorem Frame.record (s : State) (e : PlatformEvent) : Frame [.events] s (s.record e) := by
  intro p hp
  cases p with
  | events => simp at hp
  | _ => rfl

theorem Frame.countDraw (s : State) : Frame [.draws] s s.countDraw := by
  intro p hp
  cases p with
  | draws => simp at hp
  | _ => rfl

theorem Frame.setRamp (s : State) (q : Ptr) (v : Byte) : Frame [.ramp q] s (s.setRamp q v) := by
  intro p hp
  cases p with
  | ramp p =>
    have : p ≠ q := by simpa using hp
    simp [Part.same, State.ramp_setRamp, this]
  | _ => cases q <;> rfl

theorem Frame.setRampD (s : State) (v : Byte) : Frame [.rampD] s (s.setRampD v) := by
  intro p hp
  cases p with
  | rampD => simp at hp
  | _ => rfl

theorem Frame.setEind (s : State) (v : Byte) : Frame [.eind] s (s.setEind v) := by
  intro p hp
  cases p with
  | eind => simp at hp
  | _ => rfl

theorem Frame.writeSreg (s : State) (v : Byte) : Frame (.inhibit :: allFlags) s (s.writeSreg v) := by
  intro p hp
  cases p with
  | flag f => cases f <;> simp [allFlags, flagsHSVNZC, flagsSVNZC, flagsSVNZ] at hp
  | inhibit => simp at hp
  | _ => rfl

/-- A stored SRAM byte is read back. -/
@[simp] theorem State.sram_sramWrite_self (s : State) (a : Nat) (v : Byte) : (sramWrite s a v).sram a = some v := by
  simp [State.sram, sramWrite]

theorem Frame.sramWrite (s : State) (a : Nat) (v : Byte) : Frame [.sram a] s (sramWrite s a v) := by
  intro p hp
  cases p with
  | sram b => exact Memory.read_write_of_ne _ _ _ _ _ (by simpa using hp)
  | _ => rfl

/-! ### The pc -/

/-- `pc + offset` as a number (R32). -/
theorem pcAdd_toNat (c : Config) (pc : PcWord) (offset : Int) :
    ((pcAdd c pc offset).toNat : Int) = (pc.toNat + offset) % ((2 ^ wrapWidth c : Nat) : Int) := by
  have hw : wrapWidth c ≤ 22 := by
    have h22 : c.pcBits.width ≤ 22 := by cases c.pcBits <;> decide
    unfold wrapWidth
    split
    · exact h22
    · omega
  have hpow : (2 ^ wrapWidth c : Nat) ≤ 2 ^ 22 := Nat.pow_le_pow_right (by omega) hw
  have hpos : (0 : Int) < ((2 ^ wrapWidth c : Nat) : Int) := by exact_mod_cast Nat.two_pow_pos _
  have h0 := Int.emod_nonneg (pc.toNat + offset) (ne_of_gt hpos)
  have h1 := Int.emod_lt_of_pos (pc.toNat + offset) hpos
  have h2 : ((2 ^ wrapWidth c : Nat) : Int) ≤ 4194304 := by exact_mod_cast hpow
  unfold pcAdd
  rw [BitVec.toNat_ofInt]
  norm_num at *
  omega

theorem PcAt.advance (s : State) (n : Nat) : PcAt s (s.advance n) n := pcAdd_toNat s.cfg s.pc n

theorem PcAt.branch (s : State) (c : Bool) (k : Int) : PcAt s (s.branch c k) (if c then k + 1 else 1) :=
  pcAdd_toNat s.cfg s.pc _

/-- `PcAt` looks at nothing but the configuration and the pc. -/
theorem PcAt.of_eq {s u t : State} {n : Int} (hc : u.cfg = s.cfg) (hp : u.pc = s.pc) (h : PcAt u t n) : PcAt s t n := by
  unfold PcAt at *
  rw [hc, hp] at h
  exact h

/-- Moves of the pc add up. -/
theorem PcAt.trans {s t u : State} {m n : Int} (hc : t.cfg = s.cfg) (h1 : PcAt s t m) (h2 : PcAt t u n) :
    PcAt s u (m + n) := by
  unfold PcAt at *
  rw [h2, h1, hc, Int.emod_add_emod, Int.add_assoc]

/-! ### SP -/

/-- SP - 1 as a number (R35). -/
theorem spDec_toNat (c : Config) (sp : BitVec 16) :
    (spDec c sp).toNat = (sp.toNat + 2 ^ c.spBits.width - 1) % 2 ^ c.spBits.width := by
  have := sp.isLt
  unfold spDec spTrunc
  rw [BitVec.toNat_ofNat, BitVec.toNat_sub]
  cases c.spBits <;> simp [SpBits.width] <;> omega

/-- SP + 1 as a number (R35). -/
theorem spInc_toNat (c : Config) (sp : BitVec 16) :
    (spInc c sp).toNat = (sp.toNat + 1) % 2 ^ c.spBits.width := by
  have := sp.isLt
  unfold spInc spTrunc
  rw [BitVec.toNat_ofNat, BitVec.toNat_add]
  cases c.spBits <;> simp [SpBits.width]
  omega

end Sys2Proof.Machine
end

