-- ==== Sys2Proof/Laws/Words.lean ====
section
/-! SUPPORT. Concatenated bit vectors as numbers and bit by bit, at the widths the model joins (spec/00_scope.md R13,
spec/20_memory.md R68). -/

namespace Sys2Proof

/-- The number a concatenation is, for any width equal to the sum of the parts. -/
theorem append_toNat {m n : Nat} (x : BitVec m) (y : BitVec n) : (x ++ y).toNat = x.toNat * 2 ^ n + y.toNat := by
  rw [BitVec.toNat_append, ← Nat.shiftLeft_add_eq_or_of_lt y.isLt, Nat.shiftLeft_eq]

/-- High and low byte of a word. -/
theorem word_toNat (x y : Byte) : (x ++ y : Word).toNat = x.toNat * 256 + y.toNat := append_toNat x y

theorem word_getLsbD (x y : Byte) (i : Nat) :
    (x ++ y : Word).getLsbD i = if i < 8 then y.getLsbD i else x.getLsbD (i - 8) := by
  have h : (x ++ y).getLsbD i = _ := BitVec.getLsbD_append
  refine Eq.trans h ?_
  by_cases hi : i < 8 <;> simp [hi]

theorem word_low (x y : Byte) : (x ++ y : Word).extractLsb' 0 8 = y := by
  ext i hi
  simp only [BitVec.getElem_extractLsb', word_getLsbD]
  simp [hi]

theorem word_high (x y : Byte) : (x ++ y : Word).extractLsb' 8 8 = x := by
  ext i hi
  simp only [BitVec.getElem_extractLsb', word_getLsbD]
  simp [BitVec.getLsbD_eq_getElem hi]

/-- A word is its two bytes. -/
theorem word_bytes (w : Word) : (w.extractLsb' 8 8 ++ w.extractLsb' 0 8 : Word) = w := by
  apply BitVec.eq_of_toNat_eq
  have := w.isLt
  rw [word_toNat]
  simp [Nat.shiftRight_eq_div_pow]
  omega

/-- A RAMP register above a 16-bit value (R68). -/
theorem addr_toNat (x : Byte) (w : Word) : (x ++ w : Addr24).toNat = x.toNat * 65536 + w.toNat := append_toNat x w

/-- Three bytes of a 24-bit address, the highest first. -/
theorem addr3_toNat (x y z : Byte) : (x ++ y ++ z : Addr24).toNat = x.toNat * 65536 + y.toNat * 256 + z.toNat := by
  have h : (x ++ y ++ z : Addr24).toNat = (x ++ y : Word).toNat * 256 + z.toNat := append_toNat (x ++ y) z
  rw [h, word_toNat]
  omega

/-- EIND:Z as a program address (R68). -/
theorem pc_toNat (x : BitVec 6) (w : Word) : (x ++ w : PcWord).toNat = x.toNat * 65536 + w.toNat := append_toNat x w

/-- A popped return address, the highest byte first (R79). -/
theorem pc3_toNat (x : BitVec 6) (y z : Byte) :
    (x ++ y ++ z : PcWord).toNat = x.toNat * 65536 + y.toNat * 256 + z.toNat := by
  have h : (x ++ y ++ z : PcWord).toNat = (x ++ y : BitVec 14).toNat * 256 + z.toNat := append_toNat (x ++ y) z
  have h' : (x ++ y : BitVec 14).toNat = x.toNat * 256 + y.toNat := append_toNat x y
  rw [h, h']
  omega

end Sys2Proof
end

