-- ==== Sys2Proof/Laws/Ops.lean ====
section
/-! SUPPORT. One lemma for each shared operation of Machine/Ops.lean and Machine/Operands.lean that says once what it does:
the reads and writes of the I/O space and the data space, the stack, the pointers (spec/20_memory.md R60-R79, R85). -/

namespace Sys2Proof.Machine

@[simp] theorem finish_ok (s : State) : finish (.ok s) = .next s := rfl

@[simp] theorem finish_error (e : Fault) : finish (.error e) = .fault e := rfl

/-- A meaning over an operation answers a next state exactly where the operation does. -/
theorem finish_eq_next {x : Except Fault State} {t : State} : finish x = .next t ↔ x = .ok t := by
  cases x <;> simp [finish]

/-! ### The I/O space -/

theorem devRead_effect (loc : DevLoc) (s : State) :
    (devRead loc s).1 = Config.freeByte s.draws ∧
    (devRead loc s).2.events = .devRead loc (Config.freeByte s.draws) :: s.events ∧
    (devRead loc s).2.draws = s.draws + 1 ∧ Frame [.events, .draws] s (devRead loc s).2 ∧
    (devRead loc s).2.pc = s.pc :=
  ⟨rfl, rfl, rfl, (Frame.record s _).trans (Frame.countDraw _), rfl⟩

/-- Everything `IoRead` does (R70). -/
theorem ioRead_effect (A : BitVec 6) (s : State) :
    (ioRead A s).1 = ioByte s A ∧ IoReadEffect A s (ioRead A s).2 ∧ (ioRead A s).2.pc = s.pc := by
  have hsp : 8 < s.cfg.spBits.width ↔ s.cfg.spBits = .bits16 := by cases s.cfg.spBits <;> decide
  have hlo : (BitVec.extractLsb' 0 8 s.sp) = BitVec.ofNat 8 s.sp.toNat := by
    apply BitVec.eq_of_toNat_eq; simp
  have hhi : (BitVec.extractLsb' 8 8 s.sp) = BitVec.ofNat 8 (s.sp.toNat / 256) := by
    apply BitVec.eq_of_toNat_eq; simp [Nat.shiftRight_eq_div_pow]
  unfold ioRead IoReadEffect ioByte ioTarget
  simp only [hsp]
  split_ifs <;> simp_all [devRead, State.ramp]
  exact (Frame.record s _).trans (Frame.countDraw _)

/-- Everything `IoWrite` does (R71). -/
theorem ioWrite_effect (A : BitVec 6) (v : Byte) (s : State) :
    IoStored A v s (ioWrite A v s) ∧ (ioWrite A v s).pc = s.pc := by
  unfold ioWrite IoStored
  cases ioTarget s.cfg A with
  | sreg => exact ⟨⟨rfl, rfl, Frame.writeSreg s v⟩, rfl⟩
  | spl =>
    refine ⟨⟨?_, Frame.setSp s _⟩, rfl⟩
    have h2 := s.sp.isLt
    rw [State.setSp_sp, word_toNat]
    simp [Nat.shiftRight_eq_div_pow]
    omega
  | sph =>
    refine ⟨⟨?_, Frame.setSp s _⟩, rfl⟩
    rw [State.setSp_sp, word_toNat]
    simp
  | ramp p => exact ⟨⟨State.ramp_setRamp_self s p v, Frame.setRamp s p v⟩, State.setRamp_pc s p v⟩
  | rampD => exact ⟨⟨rfl, Frame.setRampD s v⟩, rfl⟩
  | eind => exact ⟨⟨rfl, Frame.setEind s v⟩, rfl⟩
  | device => exact ⟨⟨rfl, Frame.record s _⟩, rfl⟩

/-- A write of an I/O location changes no configuration. -/
theorem IoStored.cfg_eq {A : BitVec 6} {v : Byte} {s t : State} (h : IoStored A v s t) : t.cfg = s.cfg := by
  unfold IoStored at h
  split at h
  · exact h.2.2 .cfg (by decide)
  all_goals exact h.2 .cfg (by simp)

/-! ### The data space -/

/-- Where the class of an address is the address itself (R61). -/
theorem classify_sram {c : Config} {a b : Nat} (h : classify c a = .sram b) : b = a := by
  unfold classify at h
  split at h
  · simp at h
  · rename_i g _
    revert h
    cases g.kind <;> simp only [] <;> intro h <;> first | (split at h <;> simp at h) | simp_all

theorem classify_extSram {c : Config} {a b : Nat} (h : classify c a = .extSram b) : b = a := by
  unfold classify at h
  split at h
  · simp at h
  · rename_i g _
    revert h
    cases g.kind <;> simp only [] <;> intro h <;> first | (split at h <;> simp at h) | simp_all

theorem classify_extIo {c : Config} {a b : Nat} (h : classify c a = .extIo b) : b = a := by
  unfold classify at h
  split at h
  · simp at h
  · rename_i g _
    revert h
    cases g.kind <;> simp only [] <;> intro h <;> first | (split at h <;> simp at h) | simp_all

/-- `ProgByte` within FLASHEND is the program byte (R67). -/
theorem progByte_ok (s : State) (b : Nat) (h : b / 2 ≤ s.cfg.flashEnd) : progByte s b = .ok (s.progCell b) := by
  have h' : ¬ s.cfg.flashEnd < b / 2 := by omega
  simp only [progByte, h', if_false]
  congr 1
  unfold State.progWord
  split
  · rw [word_low]
    congr 1
    omega
  · rw [word_high]
    congr 1
    omega

theorem progByte_error (s : State) (b : Nat) (h : s.cfg.flashEnd < b / 2) :
    progByte s b = .error (.unmappedAddress b) := by simp [progByte, h]

/-- Everything a successful `MemRead` does (R62). -/
theorem memRead_effect (a : Nat) (s : State) (h : Readable s a) :
    ∃ t, memRead a s = .ok (dataByte s a, t) ∧ ReadEffect a s t ∧ t.pc = s.pc := by
  unfold Readable at h
  unfold memRead dataByte ReadEffect readParts deviceAt
  generalize hc : classify s.cfg a = k at h
  cases k with
  | reg i => exact ⟨s, rfl, by simp, rfl⟩
  | io A =>
    obtain ⟨h1, h2, h3⟩ := ioRead_effect A s
    refine ⟨(ioRead A s).2, congrArg Except.ok (Prod.ext h1 rfl), ?_, h3⟩
    unfold IoReadEffect at h2
    by_cases hd : ioTarget s.cfg A = .device
    · simp only [hd, if_true] at h2 ⊢
      exact ⟨by simpa using h2.2.2, by rintro loc hl; cases hl; exact ⟨h2.1, h2.2.1⟩⟩
    · simp only [hd, if_false] at h2 ⊢
      exact ⟨by simpa using h2, by simp⟩
  | extIo b =>
    obtain ⟨h1, h2, h3, h4, h5⟩ := devRead_effect (.ext b) s
    exact ⟨(devRead (.ext b) s).2, congrArg Except.ok (Prod.ext h1 rfl), ⟨by simpa using h4, by rintro loc hl; cases hl; exact ⟨h2, h3⟩⟩, h5⟩
  | sram b =>
    obtain ⟨v, hv⟩ := Option.ne_none_iff_exists'.1 h
    refine ⟨s, ?_, by simp, rfl⟩
    simp only [sramRead, State.sram] at hv ⊢
    simp [hv, Except.map]
  | extSram b =>
    obtain ⟨v, hv⟩ := Option.ne_none_iff_exists'.1 h
    refine ⟨s, ?_, by simp, rfl⟩
    simp only [sramRead, State.sram] at hv ⊢
    simp [hv, Except.map]
  | flash b => exact ⟨s, by simp [progByte_ok s b h, Except.map], by simp, rfl⟩
  | unmapped => exact h.elim

/-- The fault of a `MemRead` that gives no byte (R377, log 6). -/
theorem memRead_fault (a : Nat) (s : State) (h : ¬ Readable s a) :
    memRead a s = .error (readFault s a) := by
  unfold Readable at h
  unfold memRead readFault
  generalize hc : classify s.cfg a = k at h
  cases k with
  | reg i => simp at h
  | io A => simp at h
  | extIo b => simp at h
  | sram b =>
    have hb := classify_sram hc
    subst hb
    simp only [not_not] at h
    have h' : Memory.read dataBlank s.data b = none := h
    simp [sramRead, h', Except.map]
  | extSram b =>
    have hb := classify_extSram hc
    subst hb
    simp only [not_not] at h
    have h' : Memory.read dataBlank s.data b = none := h
    simp [sramRead, h', Except.map]
  | flash b => simp [progByte_error s b (by omega), Except.map]
  | unmapped => rfl

/-- Everything a successful `MemWrite` does (R63). -/
theorem memWrite_effect (a : Nat) (v : Byte) (s : State) (h : Writable s.cfg a) :
    ∃ t, memWrite a v s = .ok t ∧ Stored a v s t ∧ t.pc = s.pc := by
  unfold Writable at h
  unfold memWrite Stored
  generalize hc : classify s.cfg a = k at h
  cases k with
  | reg i => exact ⟨_, rfl, ⟨State.reg_setReg_self s i v, Frame.setReg s i v⟩, rfl⟩
  | io A => exact ⟨_, rfl, (ioWrite_effect A v s).1, (ioWrite_effect A v s).2⟩
  | extIo b => exact ⟨_, rfl, ⟨rfl, Frame.record s _⟩, rfl⟩
  | sram b => exact ⟨_, rfl, ⟨State.sram_sramWrite_self s b v, Frame.sramWrite s b v⟩, rfl⟩
  | extSram b => exact ⟨_, rfl, ⟨State.sram_sramWrite_self s b v, Frame.sramWrite s b v⟩, rfl⟩
  | flash b => exact h.elim
  | unmapped => exact h.elim

/-- The fault of a `MemWrite` that stores nothing (R377). -/
theorem memWrite_fault (a : Nat) (v : Byte) (s : State) (h : ¬ Writable s.cfg a) :
    memWrite a v s = .error (writeFault s.cfg a) := by
  unfold Writable at h
  unfold memWrite writeFault
  cases hc : classify s.cfg a <;> simp_all

/-- A store changes no configuration. -/
theorem Stored.cfg_eq {a : Nat} {v : Byte} {s t : State} (h : Stored a v s t) : t.cfg = s.cfg := by
  unfold Stored at h
  split at h
  · exact h.2 .cfg (by simp)
  · exact h.cfg_eq
  · exact h.2 .cfg (by simp)
  · exact h.2 .cfg (by simp)
  · exact h.2 .cfg (by simp)
  · exact h.elim
  · exact h.elim

/-- A read of the data space changes no configuration. -/
theorem ReadEffect.cfg_eq {a : Nat} {s t : State} (h : ReadEffect a s t) : t.cfg = s.cfg :=
  h.1 .cfg (by unfold readParts; split <;> simp)

/-- A read of the data space changes no SRAM byte. -/
theorem ReadEffect.sram_eq {a : Nat} {s t : State} (h : ReadEffect a s t) (b : Nat) : t.sram b = s.sram b :=
  h.1 (.sram b) (by unfold readParts; split <;> simp)

/-- A read of the data space leaves SP. -/
theorem ReadEffect.sp_eq {a : Nat} {s t : State} (h : ReadEffect a s t) : t.sp = s.sp :=
  h.1 .sp (by unfold readParts; split <;> simp)

/-- What can be read depends on the configuration and the SRAM bytes only. -/
theorem Readable.of_eq {a : Nat} {s t : State} (h : Readable s a) (hc : t.cfg = s.cfg)
    (hm : ∀ b, t.sram b = s.sram b) : Readable t a := by
  unfold Readable at *
  rw [hc]
  cases hk : classify s.cfg a <;> simp_all

/-- A step that changes nothing but the pc may follow a read. -/
theorem ReadEffect.extend {a : Nat} {s u v : State} (h : ReadEffect a s u) (f : Frame [] u v) : ReadEffect a s v := by
  refine ⟨h.1.trans_same (f.mono (by simp)), fun loc hl => ?_⟩
  obtain ⟨h1, h2⟩ := h.2 loc hl
  exact ⟨(f .events (by simp)).trans h1, (f .draws (by simp)).trans h2⟩

/-- A step that changes nothing but the pc may follow a write of an I/O location. -/
theorem IoStored.extend {A : BitVec 6} {v : Byte} {s t w : State} (h : IoStored A v s t) (f : Frame [] t w) :
    IoStored A v s w := by
  have sr : w.sreg = t.sreg := by rw [sreg_eq_iff]; intro g; exact f (.flag g) (by simp)
  unfold IoStored at *
  split at h
  · exact ⟨sr.trans h.1, (f .inhibit (by simp)).trans h.2.1, h.2.2.trans_same (f.mono (by simp))⟩
  · exact ⟨by rw [f .sp (by simp)]; exact h.1, h.2.trans_same (f.mono (by simp))⟩
  · exact ⟨by rw [f .sp (by simp)]; exact h.1, h.2.trans_same (f.mono (by simp))⟩
  · exact ⟨(f (.ramp _) (by simp)).trans h.1, h.2.trans_same (f.mono (by simp))⟩
  · exact ⟨(f .rampD (by simp)).trans h.1, h.2.trans_same (f.mono (by simp))⟩
  · exact ⟨(f .eind (by simp)).trans h.1, h.2.trans_same (f.mono (by simp))⟩
  · exact ⟨(f .events (by simp)).trans h.1, h.2.trans_same (f.mono (by simp))⟩

/-- A step that changes nothing but the pc may follow a store. -/
theorem Stored.extend {a : Nat} {v : Byte} {s t w : State} (h : Stored a v s t) (f : Frame [] t w) : Stored a v s w := by
  unfold Stored at *
  split at h
  · exact ⟨(f (.reg _) (by simp)).trans h.1, h.2.trans_same (f.mono (by simp))⟩
  · exact h.extend f
  · exact ⟨(f .events (by simp)).trans h.1, h.2.trans_same (f.mono (by simp))⟩
  · exact ⟨(f (.sram _) (by simp)).trans h.1, h.2.trans_same (f.mono (by simp))⟩
  · exact ⟨(f (.sram _) (by simp)).trans h.1, h.2.trans_same (f.mono (by simp))⟩
  · exact h.elim
  · exact h.elim

/-! ### The stack -/

/-- Everything `Push8` does (R76). -/
theorem push8_effect (v : Byte) (s : State) (h : Writable s.cfg s.sp.toNat) :
    ∃ t, push8 v s = .ok t ∧ Pushed v s t ∧ t.pc = s.pc ∧ t.cfg = s.cfg ∧ t.sp.toNat = pushSlot s 1 := by
  obtain ⟨u, hu, hs, hp⟩ := memWrite_effect s.sp.toNat v s h
  refine ⟨u.setSp (spDec s.cfg s.sp), by simp [push8, hu], ⟨u, hs, ?_, Frame.setSp u _⟩, hp, hs.cfg_eq, ?_⟩ <;>
    exact spDec_toNat s.cfg s.sp

/-- The fault of `Push8` (R377). -/
theorem push8_fault (v : Byte) (s : State) (h : ¬ Writable s.cfg s.sp.toNat) :
    push8 v s = .error (writeFault s.cfg s.sp.toNat) := by
  simp [push8, memWrite_fault _ v s h]

/-- Everything `Pop8` does (R77). -/
theorem pop8_effect (s : State) (h : Readable s (popSlot s 0)) :
    ∃ v t, pop8 s = .ok (v, t) ∧ Popped v s t ∧ t.pc = s.pc ∧ t.cfg = s.cfg ∧ t.sp.toNat = popSlot s 0 ∧
      ∀ b, t.sram b = s.sram b := by
  have hsp : (spInc s.cfg s.sp).toNat = popSlot s 0 := spInc_toNat s.cfg s.sp
  have hr : Readable (s.setSp (spInc s.cfg s.sp)) (popSlot s 0) := h.of_eq rfl fun _ => rfl
  obtain ⟨t, ht, he, hp⟩ := memRead_effect (popSlot s 0) _ hr
  refine ⟨_, t, ?_, ⟨s.setSp (spInc s.cfg s.sp), hsp, Frame.setSp s _, rfl, ?_⟩, hp, he.cfg_eq, ?_, he.sram_eq⟩
  · simp only [pop8, State.setSp_sp, hsp]
    exact ht
  · simpa only [State.setSp_sp, hsp] using he
  · rw [he.sp_eq]
    exact hsp

/-- The addresses of the bytes pushed after the first. -/
theorem pushSlot_pushed (s u : State) (hc : u.cfg = s.cfg) (hsp : u.sp.toNat = pushSlot s 1) (j : Nat) :
    pushSlot u j = pushSlot s (j + 1) := by
  induction j with
  | zero => exact hsp
  | succ j ih => simp only [pushSlot, ih, hc]

/-- Everything `PushPC` does (R78). -/
theorem pushPc_effect (v : PcWord) (s : State) (h : ∀ j < retBytes s.cfg, Writable s.cfg (pushSlot s j)) :
    ∃ t, pushPc v s = .ok t ∧ PushedAll (returnBytes s.cfg v) s t ∧ t.pc = s.pc ∧ t.cfg = s.cfg := by
  have b0 : v.extractLsb' 0 8 = BitVec.ofNat 8 v.toNat := by apply BitVec.eq_of_toNat_eq; simp
  have b1 : v.extractLsb' 8 8 = BitVec.ofNat 8 (v.toNat / 256) := by apply BitVec.eq_of_toNat_eq; simp [Nat.shiftRight_eq_div_pow]
  have b2 : (v.extractLsb' 16 6).setWidth 8 = BitVec.ofNat 8 (v.toNat / 65536) := by
    have := v.isLt
    apply BitVec.eq_of_toNat_eq; simp [Nat.shiftRight_eq_div_pow]; omega
  have h2 : 2 ≤ retBytes s.cfg := by unfold retBytes; split <;> omega
  obtain ⟨u1, e1, p1, c1, f1, s1⟩ := push8_effect (v.extractLsb' 0 8) s (h 0 (by omega))
  have sl1 := pushSlot_pushed s u1 f1 s1
  obtain ⟨u2, e2, p2, c2, f2, s2⟩ := push8_effect (v.extractLsb' 8 8) u1 (by rw [f1, s1]; exact h 1 (by omega))
  have sl2 := pushSlot_pushed u1 u2 f2 s2
  unfold pushPc returnBytes
  cases hp : s.cfg.pcBits with
  | bits16 =>
    refine ⟨u2, by simp [e1, e2], ⟨u1, b0 ▸ p1, u2, b1 ▸ p2, rfl⟩, c2.trans c1, f2.trans f1⟩
  | bits22 =>
    obtain ⟨u3, e3, p3, c3, f3, s3⟩ := push8_effect ((v.extractLsb' 16 6).setWidth 8) u2 (by
      rw [f2, f1, s2, sl1]; exact h 2 (by simp [retBytes, hp]))
    refine ⟨u3, by simp [e1, e2, e3], ⟨u1, b0 ▸ p1, u2, b1 ▸ p2, u3, b2 ▸ p3, rfl⟩, c3.trans (c2.trans c1), f3.trans (f2.trans f1)⟩

/-- The addresses of the bytes popped after the first. -/
theorem popSlot_popped (s u : State) (j : Nat) (hc : u.cfg = s.cfg) (hs : u.sp.toNat = popSlot s 0) :
    popSlot u j = popSlot s (j + 1) := by
  simp only [popSlot, hc, hs]
  rw [Nat.add_assoc, Nat.mod_add_mod]
  congr 1
  omega

/-- Everything `PopPC` does (R79). -/
theorem popPc_effect (s : State) (h : ∀ j < retBytes s.cfg, Readable s (popSlot s j)) :
    ∃ bytes v u, popPc s = .ok (v, u) ∧ bytes.length = retBytes s.cfg ∧ PoppedAll bytes s u ∧ u.cfg = s.cfg ∧
      v.toNat = bytesValue bytes % 2 ^ s.cfg.pcBits.width := by
  have low : ∀ (hi : BitVec 6) (s : State), (∀ j < 2, Readable s (popSlot s j)) → ∃ a b u,
      popPcLow hi s = .ok (hi ++ a ++ b, u) ∧ PoppedAll [a, b] s u ∧ u.cfg = s.cfg := by
    intro hi s h
    obtain ⟨a, t, e, p, _, c, sp, m⟩ := pop8_effect s (h 0 (by omega))
    have : Readable t (popSlot t 0) := by
      rw [popSlot_popped s t 0 c sp]; exact (h 1 (by omega)).of_eq c m
    obtain ⟨b, u, e2, p2, _, c2, sp2, m2⟩ := pop8_effect t this
    exact ⟨a, b, u, by simp [popPcLow, e, e2], ⟨t, p, u, p2, rfl⟩, c2.trans c⟩
  unfold popPc
  cases hp : s.cfg.pcBits with
  | bits16 =>
    obtain ⟨a, b, u, e, p, c⟩ := low 0 s (fun j hj => h j (by simp [retBytes, hp]; omega))
    refine ⟨[a, b], _, u, e, by simp [retBytes, hp], p, c, ?_⟩
    have := a.isLt; have := b.isLt
    rw [pc3_toNat]; simp [bytesValue, PcBits.width]; omega
  | bits22 =>
    obtain ⟨x, t, e, p, _, c, sp, m⟩ := pop8_effect s (h 0 (by simp [retBytes, hp]))
    obtain ⟨a, b, u, e2, p2, c2⟩ := low (x.extractLsb' 0 6) t (fun j hj => by
      rw [popSlot_popped s t j c sp]; exact (h (j+1) (by simp [retBytes, hp]; omega)).of_eq c m)
    refine ⟨[x, a, b], x.extractLsb' 0 6 ++ a ++ b, u, by simp [e, e2], by simp [retBytes, hp], ⟨t, p, p2⟩, c2.trans c, ?_⟩
    have := a.isLt; have := b.isLt; have := x.isLt
    rw [pc3_toNat]; simp [bytesValue, PcBits.width]; omega

/-- What can be read depends on the configuration and the SRAM bytes only. -/
theorem Readable.iff_of_eq {a : Nat} {s t : State} (hc : t.cfg = s.cfg) (hm : ∀ b, t.sram b = s.sram b) :
    Readable t a ↔ Readable s a :=
  ⟨fun h => h.of_eq hc.symm fun b => (hm b).symm, fun h => h.of_eq hc hm⟩

/-- The fault of a read depends on the configuration only. -/
theorem readFault_of_eq {s t : State} (h : t.cfg = s.cfg) (a : Nat) : readFault t a = readFault s a := by
  unfold readFault
  rw [h]

/-- The fault of `Pop8` (R377, log 6). -/
theorem pop8_fault (s : State) (h : ¬ Readable s (popSlot s 0)) : pop8 s = .error (readFault s (popSlot s 0)) := by
  have hsp : (spInc s.cfg s.sp).toNat = popSlot s 0 := spInc_toNat s.cfg s.sp
  have e := memRead_fault (popSlot s 0) (s.setSp (spInc s.cfg s.sp))
    fun h' => h (h'.of_eq rfl fun _ => rfl)
  simp only [pop8, State.setSp_sp, hsp]
  exact e

/-- `PushPC` faults at the first of its bytes that cannot be stored (R377). -/
theorem pushPc_fault (v : PcWord) (s : State) (j : Nat) (hj : j < retBytes s.cfg)
    (hb : ∀ i < j, Writable s.cfg (pushSlot s i)) (h : ¬ Writable s.cfg (pushSlot s j)) :
    pushPc v s = .error (writeFault s.cfg (pushSlot s j)) := by
  cases j with
  | zero => simp only [pushPc, push8_fault _ s h]; rfl
  | succ j =>
    obtain ⟨u1, e1, -, -, f1, s1⟩ := push8_effect (v.extractLsb' 0 8) s (hb 0 (by omega))
    have sl1 := pushSlot_pushed s u1 f1 s1
    cases j with
    | zero =>
      have := push8_fault (v.extractLsb' 8 8) u1 (by rw [f1, s1]; exact h)
      simp only [pushPc, e1, this, f1, s1, Nat.zero_add]
    | succ j =>
      obtain ⟨u2, e2, -, -, f2, s2⟩ := push8_effect (v.extractLsb' 8 8) u1 (by rw [f1, s1]; exact hb 1 (by omega))
      unfold retBytes at hj
      cases hp : s.cfg.pcBits with
      | bits16 => simp only [hp] at hj; omega
      | bits22 =>
        simp only [hp] at hj
        obtain rfl : j = 0 := by omega
        have hs : u2.sp.toNat = pushSlot s 2 := by rw [s2, sl1]
        have := push8_fault ((v.extractLsb' 16 6).setWidth 8) u2 (by rw [f2, f1, hs]; exact h)
        simp only [pushPc, e1, e2, f2, f1, hp, this, hs, Nat.zero_add, Nat.reduceAdd]

/-- `PopPC` faults at the first of its bytes that cannot be read (R377, log 6). -/
theorem popPc_fault (s : State) (j : Nat) (hj : j < retBytes s.cfg)
    (hb : ∀ i < j, Readable s (popSlot s i)) (h : ¬ Readable s (popSlot s j)) :
    popPc s = .error (readFault s (popSlot s j)) := by
  have low : ∀ (hi : BitVec 6) (s : State) (j : Nat), j < 2 → (∀ i < j, Readable s (popSlot s i)) →
      ¬ Readable s (popSlot s j) → popPcLow hi s = .error (readFault s (popSlot s j)) := by
    intro hi s j hj hb h
    cases j with
    | zero => simp only [popPcLow, pop8_fault s h]
    | succ j =>
      obtain rfl : j = 0 := by omega
      obtain ⟨a, t, e, -, -, c, sp, m⟩ := pop8_effect s (hb 0 (by omega))
      have sl := popSlot_popped s t 0 c sp
      have := pop8_fault t (by rw [sl, Readable.iff_of_eq c m]; exact h)
      simp only [popPcLow, e, this, sl, readFault_of_eq c]
  unfold popPc
  cases hp : s.cfg.pcBits with
  | bits16 => exact low 0 s j (by simpa [retBytes, hp] using hj) hb h
  | bits22 =>
    cases j with
    | zero => simp only [pop8_fault s h]
    | succ j =>
      obtain ⟨x, t, e, -, -, c, sp, m⟩ := pop8_effect s (hb 0 (by omega))
      have sl := fun i => popSlot_popped s t i c sp
      have := low (x.extractLsb' 0 6) t j (by simp [retBytes, hp] at hj; omega)
        (fun i hi => by rw [sl, Readable.iff_of_eq c m]; exact hb (i + 1) (by omega))
        (by rw [sl, Readable.iff_of_eq c m]; exact h)
      simp only [e, this, sl, readFault_of_eq c]

/-! ### Pointers -/

theorem ptr_halves_ne (p : Ptr) : ptrLow p ≠ ptrHigh p := by cases p <;> decide

theorem ptr_bytes2 (v : Addr24) : (v.extractLsb' 8 8 ++ v.extractLsb' 0 8 : Word) = v.extractLsb' 0 16 := by
  apply BitVec.eq_of_toNat_eq
  rw [word_toNat]
  simp [Nat.shiftRight_eq_div_pow]
  omega

theorem ptr_bytes3 (v : Addr24) : (v.extractLsb' 16 8 ++ v.extractLsb' 8 8 ++ v.extractLsb' 0 8 : Addr24) = v := by
  apply BitVec.eq_of_toNat_eq
  have := v.isLt
  rw [addr3_toNat]
  simp [Nat.shiftRight_eq_div_pow]
  omega

/-- A pointer reads back the value it was set to, narrowed to its width (R85). -/
theorem ptrGet_ptrSet (p : Ptr) (v : Addr24) (s : State) :
    ptrGet p (ptrSet p v s) = ptrClip (ptrMode s.cfg p) v := by
  have hc : (ptrSet p v s).cfg = s.cfg := by unfold ptrSet; split <;> simp
  have hne := ptr_halves_ne p
  unfold ptrGet
  rw [hc]
  unfold ptrSet ptrClip
  cases ptrMode s.cfg p with
  | small => simp
  | normal =>
    simp only [State.reg_setReg_self, State.reg_setReg_of_ne _ _ _ _ hne]
    rw [ptr_bytes2]
  | wide =>
    simp only [State.setRamp_reg, State.ramp_setRamp_self, State.reg_setReg_self, State.reg_setReg_of_ne _ _ _ _ hne]
    exact ptr_bytes3 v

/-- An update of a pointer writes its halves, and its RAMP register in WIDE mode, and nothing else (R85). -/
theorem ptrSet_frame (p : Ptr) (v : Addr24) (s : State) : Frame (ptrParts s.cfg p) s (ptrSet p v s) := by
  unfold ptrParts ptrSet
  cases ptrMode s.cfg p with
  | small => exact Frame.setReg s _ _
  | normal => exact (Frame.setReg s _ _).trans (Frame.setReg _ _ _)
  | wide => exact ((Frame.setReg s _ _).trans (Frame.setReg _ _ _)).trans (Frame.setRamp _ _ _)

/-- An update of a pointer leaves the pc. -/
theorem ptrSet_pc (p : Ptr) (v : Addr24) (s : State) : (ptrSet p v s).pc = s.pc := by
  unfold ptrSet
  split <;> simp

/-- A sum narrowed to a pointer's width stays itself when it is narrowed again. -/
theorem ptrClip_ptrClip (m : PtrMode) (v : Addr24) : ptrClip m (ptrClip m v) = ptrClip m v := by
  cases m with
  | wide => rfl
  | _ => simp only [ptrClip]; congr 1; ext i hi; simp [hi]; try omega

end Sys2Proof.Machine
end

