-- ==== Sys2Proof/Laws/Meanings.lean ====
section
/-! SUPPORT. One lemma for each shared ending of a meaning, for each operand form of Machine/Operands.lean, and for the
skip, the calls, the interrupt operations and the platform functions, that says once what it does. -/

namespace Sys2Proof.Machine

/-! ### Pairs and blocks as numbers -/

/-- A pair as a number, its higher-numbered register the high byte (R22). -/
theorem State.pair_toNat (s : State) (lo : Reg) :
    (s.pair lo).toNat = (s.reg (lo + 1)).toNat * 256 + (s.reg lo).toNat := word_toNat _ _

theorem State.pair_zero_toNat (s : State) : (s.pair 0).toNat = (s.reg 1).toNat * 256 + (s.reg 0).toNat :=
  State.pair_toNat s 0

theorem State.pair_z_toNat (s : State) : (s.pair 30).toNat = (s.reg 31).toNat * 256 + (s.reg 30).toNat :=
  State.pair_toNat s 30

/-- RAMPZ:Z as a number (R40). -/
theorem State.rampZZ_toNat (s : State) :
    s.rampZZ.toNat =
      (if s.cfg.hasRampZ then s.rampZ.toNat * 65536 else 0) + ((s.reg 31).toNat * 256 + (s.reg 30).toNat) := by
  unfold State.rampZZ
  rw [BitVec.toNat_append, ← Nat.shiftLeft_add_eq_or_of_lt (s.pair 30).isLt, Nat.shiftLeft_eq, State.pair_z_toNat]
  split <;> simp

theorem extract_append_low {n : Nat} (x : BitVec n) (y : Byte) : (x ++ y).extractLsb' 0 8 = y := by
  ext i hi
  simp [BitVec.getLsbD_append, hi]

theorem extract_append_high {n : Nat} (x : BitVec n) (y : Byte) (k : Nat) :
    (x ++ y).extractLsb' (8 * (k + 1)) 8 = x.extractLsb' (8 * k) 8 := by
  ext i hi
  simp only [BitVec.getElem_extractLsb', BitVec.getLsbD_append]
  rw [if_neg (by omega)]
  congr 1
  omega

/-- Each byte of the block DES works on is its register (R187). -/
theorem desBlock_byte (s : State) (i : Reg) (h : i.val < 16) : (desBlock s).extractLsb' (8 * i.val) 8 = s.reg i := by
  obtain ⟨n, hn⟩ := i
  simp only at h
  unfold desBlock
  interval_cases n <;> (repeat refine (extract_append_high _ _ _).trans ?_) <;>
    first | exact extract_append_low _ _ | exact BitVec.extractLsb'_eq_self

/-- Numbers of `m` bytes with the same bytes are the same. -/
theorem eq_of_bytes {m : Nat} {x y : BitVec (8 * m)}
    (h : ∀ n < m, x.extractLsb' (8 * n) 8 = y.extractLsb' (8 * n) 8) : x = y := by
  ext i hi
  have e := congrArg (fun v => v.getLsbD (i % 8)) (h (i / 8) (by omega))
  simp only [BitVec.getLsbD_extractLsb', show i % 8 < 8 from by omega, decide_true, Bool.true_and, Nat.div_add_mod] at e
  rw [← BitVec.getLsbD_eq_getElem, ← BitVec.getLsbD_eq_getElem, e]

/-- Each byte of eight registers as one number is its register. -/
theorem regs8_byte (s : State) (lo : Reg) (n : Fin 8) :
    (regs8 s lo).extractLsb' (8 * n.val) 8 = s.reg (lo + n.castLE (by decide)) := by
  obtain ⟨n, hn⟩ := n
  unfold regs8
  interval_cases n <;> (repeat refine (extract_append_high _ _ _).trans ?_) <;>
    first
    | exact (extract_append_low _ _).trans (congrArg s.reg (add_zero lo).symm)
    | exact extract_append_low _ _
    | exact BitVec.extractLsb'_eq_self

/-- The halves of the block DES works on are R7 to R0 and R15 to R8 (R187). -/
theorem desBlock_halves (s : State) : Fips46.dataOf (desBlock s) = regs8 s 0 ∧ Fips46.keyOf (desBlock s) = regs8 s 8 := by
  refine ⟨eq_of_bytes (m := 8) fun n hn => ?_, eq_of_bytes (m := 8) fun n hn => ?_⟩
  · refine Eq.trans ?_ ((desBlock_byte s ⟨n, by omega⟩ (by simp; omega)).trans
      (Eq.trans ?_ (regs8_byte s 0 ⟨n, hn⟩).symm))
    · unfold Fips46.dataOf
      ext i hi
      simp only [BitVec.getElem_extractLsb', BitVec.getLsbD_extractLsb']
      simp
      omega
    · congr 1
      simp
  · refine Eq.trans ?_ ((desBlock_byte s ⟨n + 8, by omega⟩ (by simp; omega)).trans
      (Eq.trans ?_ (regs8_byte s 8 ⟨n, hn⟩).symm))
    · unfold Fips46.keyOf
      ext i hi
      simp only [BitVec.getElem_extractLsb', BitVec.getLsbD_extractLsb']
      rw [decide_eq_true (by omega), Bool.true_and]
      congr 1
      omega
    · congr 1
      interval_cases n <;> rfl

/-- `DesRound` reaches R0 to R15 only (R187). -/
theorem setDesBlock_reg (s : State) (v : BitVec 128) (i : Reg) :
    (setDesBlock s v).reg i = if i.val < 16 then v.extractLsb' (8 * i.val) 8 else s.reg i := by
  simp only [setDesBlock, State.reg, Vector.get_ofFn]

/-- The block DES has written reads back. -/
theorem desBlock_setDesBlock (s : State) (v : BitVec 128) : desBlock (setDesBlock s v) = v :=
  eq_of_bytes (m := 16) fun n hn => by
    have h : (⟨n, by omega⟩ : Reg).val < 16 := hn
    rw [desBlock_byte _ ⟨n, by omega⟩ h, setDesBlock_reg, if_pos h]

/-- The address of the 32-bit LDS and STS as a number (R254). -/
theorem directAddr_toNat (k : BitVec 16) (s : State) :
    (directAddr k s).toNat = (if s.cfg.hasRampD then s.rampD.toNat * 65536 else 0) + k.toNat := by
  unfold directAddr
  rw [BitVec.toNat_append, ← Nat.shiftLeft_add_eq_or_of_lt k.isLt, Nat.shiftLeft_eq]
  split <;> simp

/-! ### Endings -/

/-- An update of SREG, a register and the pc: the flags of `sreg` that differ from before are the ones excepted. -/
theorem writeBack_effect (d : Reg) (r sreg : Byte) (s : State) (l : List Part)
    (h : ∀ f, Part.flag f ∉ l → getFlag sreg f = getFlag s.sreg f) :
    ∃ t, writeBack d r sreg s = .next t ∧ t.reg d = r ∧ t.sreg = sreg ∧ Frame (.reg d :: l) s t ∧ PcAt s t 1 := by
  refine ⟨_, rfl, State.reg_setReg_self _ d r, rfl, ?_, PcAt.advance ((s.setSreg sreg).setReg d r) 1⟩
  refine (((Frame.setSreg s sreg l h).trans (Frame.setReg _ d r)).trans (Frame.advance _ 1)).mono fun p hp => ?_
  simp at hp ⊢
  tauto

/-- The shifts end as the arithmetic does. -/
theorem shiftBack_eq (d : Reg) (r sreg : Byte) (s : State) : shiftBack d r sreg s = writeBack d r sreg s := rfl

theorem writeFlags_effect (sreg : Byte) (s : State) (l : List Part)
    (h : ∀ f, Part.flag f ∉ l → getFlag sreg f = getFlag s.sreg f) :
    ∃ t, writeFlags sreg s = .next t ∧ t.sreg = sreg ∧ Frame l s t ∧ PcAt s t 1 :=
  ⟨_, rfl, rfl, ((Frame.setSreg s sreg l h).trans (Frame.advance _ 1)).mono (by simp),
    PcAt.advance (s.setSreg sreg) 1⟩

theorem writeBackPair_effect (lo : Reg) (r : Word) (sreg : Byte) (s : State) (l : List Part)
    (h : ∀ f, Part.flag f ∉ l → getFlag sreg f = getFlag s.sreg f) :
    ∃ t, writeBackPair lo r sreg s = .next t ∧ t.pair lo = r ∧ t.sreg = sreg ∧
      Frame (.reg lo :: .reg (lo + 1) :: l) s t ∧ PcAt s t 1 := by
  refine ⟨_, rfl, State.pair_setPair_self _ lo r, rfl, ?_, PcAt.advance ((s.setSreg sreg).setPair lo r) 1⟩
  refine (((Frame.setSreg s sreg l h).trans (Frame.setPair _ lo r)).trans (Frame.advance _ 1)).mono fun p hp => ?_
  simp at hp ⊢
  tauto

/-- The end of a multiply (R180): R1:R0, Z and C, and nothing else. -/
theorem writeProduct_effect (p r : Word) (s : State) :
    ∃ t, writeProduct p r s = .next t ∧ t.pair 0 = r ∧ t.sreg = mulSreg s.sreg p r ∧
      Frame [.reg 0, .reg 1, .flag .C, .flag .Z] s t ∧ PcAt s t 1 :=
  writeBackPair_effect 0 r (mulSreg s.sreg p r) s [.flag .C, .flag .Z] fun f hf => by
    cases f <;> simp [mulSreg] at hf ⊢

/-- A named flag set or cleared, and nothing else (R333-R348). -/
theorem putFlagNext_effect (f : Flag) (v : Bool) (s : State) :
    (putFlagNext f v s).flag f = v ∧ Frame [.flag f] s (putFlagNext f v s) ∧ PcAt s (putFlagNext f v s) 1 := by
  refine ⟨?_, ?_, PcAt.advance (s.setSreg _) 1⟩
  · show getFlag (putFlag s.sreg f v) f = v
    simp
  · refine (((Frame.setSreg s _ [.flag f]) fun g hg => ?_).trans (Frame.advance _ 1)).mono (by simp)
    have : g ≠ f := by simpa using hg
    simp [this]

/-- A branch moves the pc and nothing else (R192). -/
theorem branch_effect (s : State) (c : Bool) (k : Int) :
    Frame [] s (s.branch c k) ∧ PcAt s (s.branch c k) (if c then k + 1 else 1) :=
  ⟨Frame.setPc s _, PcAt.branch s c k⟩

/-- The end of a one-word transfer after an operation that answers. -/
theorem transfer_ok {x : Except Fault State} {u : State} (h : x = .ok u) : transfer x = .next (u.advance 1) := by
  subst h; rfl

theorem transfer_error {x : Except Fault State} {e : Fault} (h : x = .error e) : transfer x = .fault e := by
  subst h; rfl

theorem transfer2_ok {x : Except Fault State} {u : State} (h : x = .ok u) : transfer2 x = .next (u.advance 2) := by
  subst h; rfl

theorem transfer2_error {x : Except Fault State} {e : Fault} (h : x = .error e) : transfer2 x = .fault e := by
  subst h; rfl

/-- A transfer answers a next state exactly where its operation does, one word on. -/
theorem transfer_eq_next {x : Except Fault State} {t : State} :
    transfer x = .next t ↔ ∃ u, x = .ok u ∧ t = u.advance 1 := by
  cases x <;> simp [transfer, Except.map, eq_comm]

theorem transfer2_eq_next {x : Except Fault State} {t : State} :
    transfer2 x = .next t ↔ ∃ u, x = .ok u ∧ t = u.advance 2 := by
  cases x <;> simp [transfer2, Except.map, eq_comm]

/-! ### Skips -/

/-- A skip that is not taken moves one word on, whatever stands there (R191). -/
theorem skip_of_false (s : State) : skip false s = .ok (s.advance 1) := by
  unfold skip
  split <;> rfl

/-- A skip that is taken looks at the next word (R191). -/
theorem skip_of_true (s : State) :
    skip true s = if s.pc.toNat + 1 ≤ s.cfg.flashEnd then
      .ok (s.advance (1 + skipLength s.cfg (s.progWord (s.pc.toNat + 1))))
    else .error (.fetchOutOfRange (s.pc.toNat + 1)) := by
  unfold skip
  split <;> rfl

/-! ### Operands -/

/-- Everything a load at an address does (R62). -/
theorem loadAt_effect (d : Reg) (a : Addr24) (s : State) (h : Readable s a.toNat) :
    ∃ u t, loadAt d a s = .ok t ∧ ReadEffect a.toNat s u ∧ t.reg d = dataByte s a.toNat ∧ Frame [.reg d] u t ∧
      t.pc = s.pc ∧ t.cfg = s.cfg := by
  obtain ⟨u, hu, he, hp⟩ := memRead_effect a.toNat s h
  exact ⟨u, _, by simp only [loadAt, hu], he, State.reg_setReg_self u d _, Frame.setReg u d _, hp, he.cfg_eq⟩

theorem loadAt_fault (d : Reg) (a : Addr24) (s : State) (h : ¬ Readable s a.toNat) :
    loadAt d a s = .error (readFault s a.toNat) := by
  simp only [loadAt, memRead_fault _ s h]

/-- The pc, the configuration and the flags stay over an update of a pointer. -/
theorem ptrSet_keeps (p : Ptr) (v : Addr24) (s : State) :
    (ptrSet p v s).pc = s.pc ∧ (ptrSet p v s).cfg = s.cfg ∧ (∀ a, (ptrSet p v s).sram a = s.sram a) ∧
      (∀ i, i ≠ ptrLow p → i ≠ ptrHigh p → (ptrSet p v s).reg i = s.reg i) := by
  have f := ptrSet_frame p v s
  refine ⟨ptrSet_pc p v s, f .cfg ?_, fun a => f (.sram a) ?_, fun i h1 h2 => f (.reg i) ?_⟩ <;>
    (unfold ptrParts; cases ptrMode s.cfg p <;> simp [*])

/-- A pointer set to a sum of its own reads as that sum (R85). -/
theorem ptrGet_ptrSet_offset (p : Ptr) (a n : Addr24) (s : State) (c : Config) (h : s.cfg = c) :
    ptrGet p (ptrSet p (ptrOffset c p a n) s) = ptrOffset c p a n := by
  subst h
  rw [ptrGet_ptrSet]
  exact ptrClip_ptrClip _ _

/-- Everything a post-increment load does (R259), for a register that is no half of the pointer. -/
theorem loadPostInc_effect (p : Ptr) (d : Reg) (s : State) (h1 : d ≠ ptrLow p) (h2 : d ≠ ptrHigh p)
    (h : Readable s (ptrGet p s).toNat) :
    ∃ u v t, loadPostInc p d s = .ok t ∧ ReadEffect (ptrGet p s).toNat s u ∧
      v.reg d = dataByte s (ptrGet p s).toNat ∧ Frame [.reg d] u v ∧ PtrMoved p (ptrAdd p 1 s) v t ∧
      t.pc = s.pc ∧ t.cfg = s.cfg := by
  obtain ⟨u, v, hv, hr, hd, hf, hp, hc⟩ := loadAt_effect d (ptrGet p s) s h
  obtain ⟨kp, kc, -, -⟩ := ptrSet_keeps p (ptrOffset s.cfg p (ptrGet p s) 1) v
  refine ⟨u, v, _, ?_, hr, hd, hf, ⟨ptrGet_ptrSet_offset p _ 1 v s.cfg hc, ptrSet_frame p _ v⟩, kp.trans hp, kc.trans hc⟩
  simp [loadPostInc, isPtrHalf, h1, h2, hv]

/-- Everything a pre-decrement load does (R260), for a register that is no half of the pointer. -/
theorem loadPreDec_effect (p : Ptr) (d : Reg) (s : State) (h1 : d ≠ ptrLow p) (h2 : d ≠ ptrHigh p)
    (h : Readable s (ptrAdd p (-1) s).toNat) :
    ∃ u v t, loadPreDec p d s = .ok t ∧ PtrMoved p (ptrAdd p (-1) s) s u ∧
      ReadEffect (ptrAdd p (-1) s).toNat u v ∧ t.reg d = dataByte u (ptrAdd p (-1) s).toNat ∧ Frame [.reg d] v t ∧
      t.pc = s.pc ∧ t.cfg = s.cfg := by
  obtain ⟨kp, kc, km, -⟩ := ptrSet_keeps p (ptrAdd p (-1) s) s
  obtain ⟨v, t, ht, hr, hd, hf, hp, hc⟩ := loadAt_effect d (ptrAdd p (-1) s) _ (h.of_eq kc km)
  refine ⟨_, v, t, ?_, ⟨ptrGet_ptrSet_offset p _ (-1) s s.cfg rfl, ptrSet_frame p _ s⟩, hr, hd, hf, hp.trans kp, hc.trans kc⟩
  simp only [loadPreDec, isPtrHalf, beq_eq_false_iff_ne.2 h1, beq_eq_false_iff_ne.2 h2, Bool.or_self, Bool.false_eq_true, if_false, ht]

/-- Everything a post-increment store does (R272), for a register that is no half of the pointer. -/
theorem storePostInc_effect (p : Ptr) (r : Reg) (s : State) (h1 : r ≠ ptrLow p) (h2 : r ≠ ptrHigh p)
    (h : Writable s.cfg (ptrGet p s).toNat) :
    ∃ u t, storePostInc p r s = .ok t ∧ Stored (ptrGet p s).toNat (s.reg r) s u ∧ PtrMoved p (ptrAdd p 1 s) u t ∧
      t.pc = s.pc ∧ t.cfg = s.cfg := by
  obtain ⟨u, hu, hs, hp⟩ := memWrite_effect (ptrGet p s).toNat (s.reg r) s h
  obtain ⟨kp, kc, -, -⟩ := ptrSet_keeps p (ptrOffset s.cfg p (ptrGet p s) 1) u
  refine ⟨u, _, ?_, hs, ⟨ptrGet_ptrSet_offset p _ 1 u s.cfg hs.cfg_eq, ptrSet_frame p _ u⟩, kp.trans hp, kc.trans hs.cfg_eq⟩
  simp [storePostInc, isPtrHalf, h1, h2, hu]

/-- Everything a pre-decrement store does (R273), for a register that is no half of the pointer. -/
theorem storePreDec_effect (p : Ptr) (r : Reg) (s : State) (h1 : r ≠ ptrLow p) (h2 : r ≠ ptrHigh p)
    (h : Writable s.cfg (ptrAdd p (-1) s).toNat) :
    ∃ u t, storePreDec p r s = .ok t ∧ PtrMoved p (ptrAdd p (-1) s) s u ∧
      Stored (ptrAdd p (-1) s).toNat (s.reg r) u t ∧ t.pc = s.pc ∧ t.cfg = s.cfg := by
  obtain ⟨kp, kc, -, -⟩ := ptrSet_keeps p (ptrAdd p (-1) s) s
  obtain ⟨t, ht, hs, hp⟩ := memWrite_effect (ptrAdd p (-1) s).toNat (s.reg r) (ptrSet p (ptrAdd p (-1) s) s) (by rwa [kc])
  refine ⟨_, t, ?_, ⟨ptrGet_ptrSet_offset p _ (-1) s s.cfg rfl, ptrSet_frame p _ s⟩, hs, hp.trans kp, hs.cfg_eq.trans kc⟩
  simp only [storePreDec, isPtrHalf, beq_eq_false_iff_ne.2 h1, beq_eq_false_iff_ne.2 h2, Bool.or_self, Bool.false_eq_true, if_false, ht]

/-- In an auto-modifying form a half of the pointer is an undefined combination (R257). -/
theorem autoModify_fault (p : Ptr) (r : Reg) (s : State) (h : r = ptrLow p ∨ r = ptrHigh p) :
    loadPostInc p r s = .error .undefinedCombination ∧ loadPreDec p r s = .error .undefinedCombination ∧
    storePostInc p r s = .error .undefinedCombination ∧ storePreDec p r s = .error .undefinedCombination := by
  have : isPtrHalf p r = true := by simpa [isPtrHalf] using h
  simp [loadPostInc, loadPreDec, storePostInc, storePreDec, this]

/-- The faults of the auto-modifying loads, for a register that is no half of the pointer (R377). -/
theorem loadMove_fault (p : Ptr) (d : Reg) (s : State) (h1 : d ≠ ptrLow p) (h2 : d ≠ ptrHigh p) :
    (¬ Readable s (ptrGet p s).toNat → loadPostInc p d s = .error (readFault s (ptrGet p s).toNat)) ∧
    (¬ Readable s (ptrAdd p (-1) s).toNat → loadPreDec p d s = .error (readFault s (ptrAdd p (-1) s).toNat)) := by
  have hh : isPtrHalf p d = false := by simp [isPtrHalf, h1, h2]
  obtain ⟨-, kc, km, -⟩ := ptrSet_keeps p (ptrAdd p (-1) s) s
  refine ⟨fun h => ?_, fun h => ?_⟩
  · simp only [loadPostInc, hh, Bool.false_eq_true, if_false, loadAt_fault d _ s h]
  · simp only [loadPreDec, hh, Bool.false_eq_true, if_false]
    rw [loadAt_fault d _ _ (by rwa [Readable.iff_of_eq kc km]), readFault_of_eq kc]

/-- The faults of the auto-modifying stores, for a register that is no half of the pointer (R377). -/
theorem storeMove_fault (p : Ptr) (r : Reg) (s : State) (h1 : r ≠ ptrLow p) (h2 : r ≠ ptrHigh p) :
    (¬ Writable s.cfg (ptrGet p s).toNat → storePostInc p r s = .error (writeFault s.cfg (ptrGet p s).toNat)) ∧
    (¬ Writable s.cfg (ptrAdd p (-1) s).toNat →
      storePreDec p r s = .error (writeFault s.cfg (ptrAdd p (-1) s).toNat)) := by
  have hh : isPtrHalf p r = false := by simp [isPtrHalf, h1, h2]
  obtain ⟨-, kc, -, -⟩ := ptrSet_keeps p (ptrAdd p (-1) s) s
  refine ⟨fun h => ?_, fun h => ?_⟩
  · simp only [storePostInc, hh, Bool.false_eq_true, if_false, memWrite_fault _ _ s h]
  · simp only [storePreDec, hh, Bool.false_eq_true, if_false]
    rw [memWrite_fault _ _ _ (by rwa [kc]), kc]

/-- Everything a load of a program byte does (R67). -/
theorem loadProg_effect (d : Reg) (b : Nat) (s : State) (h : b / 2 ≤ s.cfg.flashEnd) :
    loadProg d b s = .ok (s.setReg d (s.progCell b)) := by
  simp [loadProg, progByte_ok s b h]

theorem loadProg_fault (d : Reg) (b : Nat) (s : State) (h : s.cfg.flashEnd < b / 2) :
    loadProg d b s = .error (.unmappedAddress b) := by
  simp [loadProg, progByte_error s b h]

/-- Everything a read, change and write at Z does (R299), where the address is allowed. -/
theorem rmw_effect (only : Bool) (f : Byte → Byte → Byte) (d : Reg) (s : State)
    (ho : only = true → classify s.cfg (ptrGet .Z s).toNat = .sram (ptrGet .Z s).toNat)
    (hr : Readable s (ptrGet .Z s).toNat) (hw : Writable s.cfg (ptrGet .Z s).toNat) :
    ∃ u v t, rmw only f d s = .ok t ∧ ReadEffect (ptrGet .Z s).toNat s u ∧
      Stored (ptrGet .Z s).toNat (f (s.reg d) (dataByte s (ptrGet .Z s).toNat)) u v ∧
      t.reg d = dataByte s (ptrGet .Z s).toNat ∧ Frame [.reg d] v t ∧ t.pc = s.pc ∧ t.cfg = s.cfg := by
  obtain ⟨u, hu, he, hp⟩ := memRead_effect _ s hr
  obtain ⟨v, hv, hs, hq⟩ := memWrite_effect (ptrGet .Z s).toNat (f (s.reg d) (dataByte s (ptrGet .Z s).toNat)) u
    (by rwa [he.cfg_eq])
  refine ⟨u, v, _, ?_, he, hs, State.reg_setReg_self v d _, Frame.setReg v d _, hq.trans hp, hs.cfg_eq.trans he.cfg_eq⟩
  cases only with
  | false => simp [rmw, hu, hv]
  | true => simp [rmw, ho rfl, hu, hv]

/-- The faults of a read, change and write at an allowed address: of its read, else of its store (R377). -/
theorem rmw_accessFault (only : Bool) (f : Byte → Byte → Byte) (d : Reg) (s : State)
    (ho : only = true → classify s.cfg (ptrGet .Z s).toNat = .sram (ptrGet .Z s).toNat) :
    (¬ Readable s (ptrGet .Z s).toNat → rmw only f d s = .error (readFault s (ptrGet .Z s).toNat)) ∧
    (Readable s (ptrGet .Z s).toNat → ¬ Writable s.cfg (ptrGet .Z s).toNat →
      rmw only f d s = .error (writeFault s.cfg (ptrGet .Z s).toNat)) := by
  have hg : (only && classify s.cfg (ptrGet .Z s).toNat != .sram (ptrGet .Z s).toNat) = false := by
    cases only with
    | false => rfl
    | true => simp [ho rfl]
  refine ⟨fun h => ?_, fun hr hw => ?_⟩
  · simp only [rmw, hg, Bool.false_eq_true, if_false, memRead_fault _ s h]
  · obtain ⟨u, hu, he, -⟩ := memRead_effect _ s hr
    simp only [rmw, hg, Bool.false_eq_true, if_false, hu]
    rw [memWrite_fault _ _ u (by rwa [he.cfg_eq]), he.cfg_eq]

/-- LAS, LAC and LAT reach internal SRAM only (R299). -/
theorem rmw_fault (f : Byte → Byte → Byte) (d : Reg) (s : State)
    (h : classify s.cfg (ptrGet .Z s).toNat ≠ .sram (ptrGet .Z s).toNat) :
    rmw true f d s = .error .undefinedCombination := by
  simp [rmw, h]

/-- RAMPZ:Z replaced: the pair, and RAMPZ where it exists (R287). -/
theorem setRampZZ_effect (v : Addr24) (s : State) :
    (setRampZZ v s).pair 30 = v.extractLsb' 0 16 ∧
    (setRampZZ v s).rampZ = (if s.cfg.hasRampZ then v.extractLsb' 16 8 else s.rampZ) ∧
    Frame [.reg 30, .reg 31, .ramp .Z] s (setRampZZ v s) ∧ (setRampZZ v s).pc = s.pc := by
  have f := Frame.setPair s 30 (v.extractLsb' 0 16)
  unfold setRampZZ
  by_cases h : s.cfg.hasRampZ
  · simp only [h, if_true]
    exact ⟨by rw [State.setRamp_pair, State.pair_setPair_self], rfl, f.trans (Frame.setRamp _ _ _), rfl⟩
  · rw [if_neg h, if_neg h]
    exact ⟨State.pair_setPair_self s 30 _, rfl, f.mono (by simp), rfl⟩

/-! ### Calls, returns, interrupts -/

/-- Everything a call does (R201). -/
theorem call_effect (ret target : PcWord) (s : State) (h : ∀ j < retBytes s.cfg, Writable s.cfg (pushSlot s j)) :
    ∃ u, call ret target s = .ok (u.setPc target) ∧ PushedAll (returnBytes s.cfg ret) s u := by
  obtain ⟨u, hu, ha, -, -⟩ := pushPc_effect ret s h
  exact ⟨u, by simp [call, hu], ha⟩

/-- Everything a return does (R202). -/
theorem return_effect (s : State) (h : ∀ j < retBytes s.cfg, Readable s (popSlot s j)) :
    ∃ bytes v u, return_ s = .ok (u.setPc v) ∧ bytes.length = retBytes s.cfg ∧ PoppedAll bytes s u ∧
      v.toNat = bytesValue bytes % 2 ^ s.cfg.pcBits.width := by
  obtain ⟨bytes, v, u, he, hl, ha, -, hv⟩ := popPc_effect s h
  exact ⟨bytes, v, u, by simp [return_, he], hl, ha, hv⟩

/-- Everything a return from an interrupt does (R382). -/
theorem interruptReturn_effect (s : State) (h : ∀ j < retBytes s.cfg, Readable s (popSlot s j)) :
    ∃ bytes u t, interruptReturn s = .ok t ∧ bytes.length = retBytes s.cfg ∧ PoppedAll bytes s u ∧
      t.pc.toNat = bytesValue bytes % 2 ^ s.cfg.pcBits.width ∧ t.irqInhibit = true ∧
      (if s.cfg.core = .AVRxm then t.events = .irqReturn :: u.events ∧ Frame [.inhibit, .events] u t
        else t.flag .I = true ∧ Frame [.inhibit, .flag .I] u t) := by
  obtain ⟨bytes, v, u, he, hl, ha, -, hv⟩ := popPc_effect s h
  refine ⟨bytes, u, _, by simp only [interruptReturn, he]; rfl, hl, ha, hv, rfl, ?_⟩
  by_cases hx : s.cfg.core = .AVRxm
  · simp only [hx, if_true]
    exact ⟨rfl, (((Frame.record u _).trans (Frame.setPc _ _)).trans (Frame.setInhibit _ _)).mono (by simp)⟩
  · simp only [hx, if_false]
    refine ⟨?_, ((((Frame.setSreg u _ [.flag .I]) fun g hg => ?_).trans (Frame.setPc _ _)).trans
      (Frame.setInhibit _ _)).mono (by simp)⟩
    · show getFlag (putFlag u.sreg .I true) .I = true
      simp
    · have : g ≠ .I := by simpa using hg
      simp [this]

/-- `VECTOR(n)` as a number (R381). -/
theorem vector_toNat (c : Config) (n : Nat) :
    (vector c n).toNat = (match c.vectorTable.lookup n with
      | some a => a.toNat
      | none => c.vectorBase + n * c.vectorStride) % 2 ^ c.pcBits.width := by
  have find : ∀ l : List (Nat × PcWord), (l.find? fun e => e.1 == n).map Prod.snd = l.lookup n := by
    intro l
    induction l with
    | nil => rfl
    | cons e l ih =>
      by_cases h : e.1 = n
      · simp [List.lookup, h]
      · have h' : (n == e.1) = false := by simpa using Ne.symm h
        simp only [List.lookup, List.find?, h', beq_eq_false_iff_ne.2 h]
        exact ih
  have hw : c.pcBits.width ≤ 22 := by cases c.pcBits <;> decide
  have trunc : ∀ v : PcWord, (pcTrunc c v).toNat = v.toNat % 2 ^ c.pcBits.width := fun v => by
    have := Nat.mod_lt v.toNat (Nat.two_pow_pos c.pcBits.width)
    have : (2 : Nat) ^ c.pcBits.width ≤ 2 ^ 22 := Nat.pow_le_pow_right (by omega) hw
    simp only [pcTrunc, BitVec.toNat_ofNat]
    exact Nat.mod_eq_of_lt (by omega)
  unfold vector
  rw [trunc, ← find]
  cases c.vectorTable.find? fun e => e.1 == n with
  | some e => rfl
  | none =>
    simp only [Option.map_none, BitVec.toNat_ofNat]
    exact Nat.mod_mod_of_dvd _ (Nat.pow_dvd_pow 2 hw)

/-- `IrqAck` is recorded and clears the requests the platform clears (R381). -/
theorem irqAck_effect (n : Nat) (s : State) :
    (irqAck n s).events = .irqAck n :: s.events ∧
    (irqAck n s).irqPending = (if n ∈ s.cfg.ackClears then s.irqPending.filter (· ≠ n) else s.irqPending) ∧
    Frame [.irqPending, .events] s (irqAck n s) ∧ (irqAck n s).pc = s.pc := by
  unfold irqAck
  by_cases h : n ∈ s.cfg.ackClears
  · simp only [List.contains_iff_mem, h, if_true]
    refine ⟨rfl, ?_, (Frame.setIrqPending s _).trans (Frame.record _ _), rfl⟩
    simp [bne, decide_not]
    rfl
  · simp only [List.contains_iff_mem, h, if_false]
    exact ⟨rfl, rfl, (Frame.record s _).mono (by simp), rfl⟩

/-- Everything an interrupt entry does (R381). -/
theorem interruptEntry_effect (n : Nat) (s : State) (h : ∀ j < retBytes s.cfg, Writable s.cfg (pushSlot s j)) :
    ∃ u t, interruptEntry n s = .ok t ∧ PushedAll (returnBytes s.cfg s.pc) s u ∧ EntryEffect n u t := by
  obtain ⟨u, hu, ha, -, hc⟩ := pushPc_effect s.pc s h
  refine ⟨u, _, by simp only [interruptEntry, hu]; rfl, ha, ?_⟩
  generalize hw : (if s.cfg.core = .AVRxm then u else u.setSreg (putFlag u.sreg .I false)) = w
  have fw : Frame [.flag .I] u w ∧ w.flag .I = (if u.cfg.core = .AVRxm then u.flag .I else false) := by
    rw [hc]
    subst hw
    split
    · exact ⟨Frame.refl _ _, rfl⟩
    · refine ⟨Frame.setSreg u _ _ fun g hg => ?_, ?_⟩
      · have : g ≠ .I := by simpa using hg
        simp [this]
      · simp
  obtain ⟨ae, ap, af, apc⟩ := irqAck_effect n (((w.setPc (vector s.cfg n)).setInhibit false).setRun .running)
  have fc := fw.1 .cfg (by simp)
  have fe := fw.1 .events (by simp)
  have fp := fw.1 .irqPending (by simp)
  have fd := fw.1 .draws (by simp)
  simp only [Part.same] at fc fe fp fd
  have fd2 := af .draws (by simp)
  have fi := af .inhibit (by simp)
  have fr := af .run (by simp)
  have ff := af (.flag .I) (by simp)
  simp only [Part.same] at fd2 fi fr ff
  refine ⟨?_, ?_, ?_, ?_, ?_, ?_, ?_, ?_⟩
  · rw [hc]; exact apc
  · exact ff.trans fw.2
  · exact fi
  · exact fr
  · exact ae.trans (by rw [← fe]; rfl)
  · exact ap.trans (by rw [← fp, ← fc]; rfl)
  · show (irqAck n _).draws + 1 = _
    rw [fd2, ← fd]; rfl
  · exact ((((fw.1.trans (Frame.setPc _ _)).trans (Frame.setInhibit _ _)).trans (Frame.setRun _ _)).trans af).trans
      (Frame.countDraw _) |>.mono fun p hp => by simp at hp ⊢; tauto

/-! ### Platform functions -/

/-- SBI and CBI where the byte is read, changed and written (R73). -/
theorem ioPutBit_effect (A : BitVec 6) (b : Fin 8) (set : Bool) (s : State)
    (h : ¬ (s.cfg.devBitOps = true ∧ ioTarget s.cfg A = .device)) :
    ∃ u, ioPutBit A b set s = ioWrite A (putBit (ioByte s A) b.val set) u ∧ IoReadEffect A s u ∧
      IoStored A (putBit (ioByte s A) b.val set) u (ioPutBit A b set s) ∧ (ioPutBit A b set s).pc = s.pc := by
  obtain ⟨h1, h2, h3⟩ := ioRead_effect A s
  have he : ioPutBit A b set s = ioWrite A (putBit (ioByte s A) b.val set) (ioRead A s).2 := by
    have : (s.cfg.devBitOps && ioTarget s.cfg A == .device) = false := by
      simpa [Bool.and_eq_false_iff] using h
    simp only [ioPutBit, this, h1]
    rfl
  obtain ⟨w1, w2⟩ := ioWrite_effect A (putBit (ioByte s A) b.val set) (ioRead A s).2
  exact ⟨_, he, h2, he ▸ w1, by rw [he, w2, h3]⟩

/-- SBI and CBI where the platform supplies a single-bit operation (R73). -/
theorem ioPutBit_device (A : BitVec 6) (b : Fin 8) (set : Bool) (s : State)
    (h : s.cfg.devBitOps = true ∧ ioTarget s.cfg A = .device) :
    ioPutBit A b set s = s.record (if set then .devSetBit (.io A) b else .devClearBit (.io A) b) := by
  simp [ioPutBit, h]

@[simp] theorem setDesBlock_pc (s : State) (v : BitVec 128) : (setDesBlock s v).pc = s.pc := by
  simp only [setDesBlock]

@[simp] theorem setDesBlock_cfg (s : State) (v : BitVec 128) : (setDesBlock s v).cfg = s.cfg := by
  simp only [setDesBlock]

/-- `DesRound` changes no part but R0 to R15 (R187). -/
theorem setDesBlock_same (s : State) (v : BitVec 128) (p : Part) (h : ∀ i : Reg, i.val < 16 → p ≠ .reg i) :
    p.same s (setDesBlock s v) := by
  cases p with
  | reg i =>
    have : ¬ i.val < 16 := fun hi => h i hi rfl
    simp only [Part.same, setDesBlock_reg, this, if_false]
  | ramp q => cases q <;> simp only [Part.same, State.ramp, setDesBlock]
  | _ => simp only [Part.same, State.flag, State.sram, State.progCell, setDesBlock]

theorem setDesBlock_frame (s : State) (v : BitVec 128) : Frame lowRegs s (setDesBlock s v) := fun p hp =>
  setDesBlock_same s v p fun i hi h => hp (by
    subst h
    simp only [lowRegs, List.mem_map, List.mem_finRange, true_and]
    exact ⟨⟨i.val, hi⟩, rfl⟩)

/-- Words stored up to FLASHEND leave every byte above it (R65). -/
theorem storeWords_lookup (flashEnd : Nat) (words : List (Nat × Word)) (m : Memory) (b : Nat)
    (h : 2 * flashEnd + 1 < b) :
    Memory.read progBlank (storeWords flashEnd m words) b = Memory.read progBlank m b := by
  unfold storeWords
  induction words generalizing m with
  | nil => rfl
  | cons e rest ih =>
    rw [List.foldl_cons, ih]
    split
    · rename_i he
      unfold Memory.writeWord
      rw [Memory.read_write_of_ne _ _ _ _ _ (by omega), Memory.read_write_of_ne _ _ _ _ _ (by omega)]
    · rfl

/-- `SpmEffect` changes no part but program memory up to FLASHEND, the page buffer, the lock bits and the model's own
record and counter (R288). -/
theorem spmEffect_same (s : State) (p : Part) (h : ∀ b ≤ 2 * s.cfg.flashEnd + 1, p ≠ .prog b)
    (hp : p ∉ [Part.spmBuffer, .lockBit, .events, .draws]) : p.same s (spmEffect s) := by
  cases p with
  | prog b =>
    have : 2 * s.cfg.flashEnd + 1 < b := by
      by_contra hb
      exact h b (by omega) rfl
    simp only [Part.same, State.progCell, spmEffect, storeWords_lookup _ _ _ _ this]
  | spmBuffer => simp at hp
  | lockBit => simp at hp
  | events => simp at hp
  | draws => simp at hp
  | _ => rfl

end Sys2Proof.Machine
end

