-- ==== Sys2Proof/Laws/PerInstr.lean ====
section
/-! SUPPORT. Statements about every instruction as syntax, one lemma per constructor. -/

namespace Sys2Proof.Laws

/-- An instruction is encoded in two words exactly where its form is one of the two-word forms (R100). -/
def Length.Statement (i : Instr) : Prop := (encode i).length = if i.form.twoWords then 2 else 1

theorem Length.add (d : Reg) (r : Reg) : Length.Statement (.add d r) := rfl

theorem Length.adc (d : Reg) (r : Reg) : Length.Statement (.adc d r) := rfl

theorem Length.adiw (d : Reg) (K : BitVec 6) : Length.Statement (.adiw d K) := rfl

theorem Length.sub (d : Reg) (r : Reg) : Length.Statement (.sub d r) := rfl

theorem Length.subi (d : Reg) (K : Byte) : Length.Statement (.subi d K) := rfl

theorem Length.sbc (d : Reg) (r : Reg) : Length.Statement (.sbc d r) := rfl

theorem Length.sbci (d : Reg) (K : Byte) : Length.Statement (.sbci d K) := rfl

theorem Length.sbiw (d : Reg) (K : BitVec 6) : Length.Statement (.sbiw d K) := rfl

theorem Length.and (d : Reg) (r : Reg) : Length.Statement (.and d r) := rfl

theorem Length.andi (d : Reg) (K : Byte) : Length.Statement (.andi d K) := rfl

theorem Length.or (d : Reg) (r : Reg) : Length.Statement (.or d r) := rfl

theorem Length.ori (d : Reg) (K : Byte) : Length.Statement (.ori d K) := rfl

theorem Length.eor (d : Reg) (r : Reg) : Length.Statement (.eor d r) := rfl

theorem Length.com (d : Reg) : Length.Statement (.com d) := rfl

theorem Length.neg (d : Reg) : Length.Statement (.neg d) := rfl

theorem Length.sbr (d : Reg) (K : Byte) : Length.Statement (.sbr d K) := rfl

theorem Length.cbr (d : Reg) (K : Byte) : Length.Statement (.cbr d K) := rfl

theorem Length.inc (d : Reg) : Length.Statement (.inc d) := rfl

theorem Length.dec (d : Reg) : Length.Statement (.dec d) := rfl

theorem Length.tst (d : Reg) : Length.Statement (.tst d) := rfl

theorem Length.clr (d : Reg) : Length.Statement (.clr d) := rfl

theorem Length.ser (d : Reg) : Length.Statement (.ser d) := rfl

theorem Length.mul (d : Reg) (r : Reg) : Length.Statement (.mul d r) := rfl

theorem Length.muls (d : Reg) (r : Reg) : Length.Statement (.muls d r) := rfl

theorem Length.mulsu (d : Reg) (r : Reg) : Length.Statement (.mulsu d r) := rfl

theorem Length.fmul (d : Reg) (r : Reg) : Length.Statement (.fmul d r) := rfl

theorem Length.fmuls (d : Reg) (r : Reg) : Length.Statement (.fmuls d r) := rfl

theorem Length.fmulsu (d : Reg) (r : Reg) : Length.Statement (.fmulsu d r) := rfl

theorem Length.des (K : BitVec 4) : Length.Statement (.des K) := rfl

theorem Length.rjmp (k : BitVec 12) : Length.Statement (.rjmp k) := rfl

theorem Length.ijmp : Length.Statement .ijmp := rfl

theorem Length.eijmp : Length.Statement .eijmp := rfl

theorem Length.jmp (k : BitVec 22) : Length.Statement (.jmp k) := rfl

theorem Length.rcall (k : BitVec 12) : Length.Statement (.rcall k) := rfl

theorem Length.icall : Length.Statement .icall := rfl

theorem Length.eicall : Length.Statement .eicall := rfl

theorem Length.call (k : BitVec 22) : Length.Statement (.call k) := rfl

theorem Length.ret : Length.Statement .ret := rfl

theorem Length.reti : Length.Statement .reti := rfl

theorem Length.cpse (d : Reg) (r : Reg) : Length.Statement (.cpse d r) := rfl

theorem Length.cp (d : Reg) (r : Reg) : Length.Statement (.cp d r) := rfl

theorem Length.cpc (d : Reg) (r : Reg) : Length.Statement (.cpc d r) := rfl

theorem Length.cpi (d : Reg) (K : Byte) : Length.Statement (.cpi d K) := rfl

theorem Length.sbrc (r : Reg) (b : Fin 8) : Length.Statement (.sbrc r b) := rfl

theorem Length.sbrs (r : Reg) (b : Fin 8) : Length.Statement (.sbrs r b) := rfl

theorem Length.sbic (A : BitVec 5) (b : Fin 8) : Length.Statement (.sbic A b) := rfl

theorem Length.sbis (A : BitVec 5) (b : Fin 8) : Length.Statement (.sbis A b) := rfl

theorem Length.brbs (s : Fin 8) (k : BitVec 7) : Length.Statement (.brbs s k) := rfl

theorem Length.brbc (s : Fin 8) (k : BitVec 7) : Length.Statement (.brbc s k) := rfl

theorem Length.breq (k : BitVec 7) : Length.Statement (.breq k) := rfl

theorem Length.brne (k : BitVec 7) : Length.Statement (.brne k) := rfl

theorem Length.brcs (k : BitVec 7) : Length.Statement (.brcs k) := rfl

theorem Length.brcc (k : BitVec 7) : Length.Statement (.brcc k) := rfl

theorem Length.brsh (k : BitVec 7) : Length.Statement (.brsh k) := rfl

theorem Length.brlo (k : BitVec 7) : Length.Statement (.brlo k) := rfl

theorem Length.brmi (k : BitVec 7) : Length.Statement (.brmi k) := rfl

theorem Length.brpl (k : BitVec 7) : Length.Statement (.brpl k) := rfl

theorem Length.brge (k : BitVec 7) : Length.Statement (.brge k) := rfl

theorem Length.brlt (k : BitVec 7) : Length.Statement (.brlt k) := rfl

theorem Length.brhs (k : BitVec 7) : Length.Statement (.brhs k) := rfl

theorem Length.brhc (k : BitVec 7) : Length.Statement (.brhc k) := rfl

theorem Length.brts (k : BitVec 7) : Length.Statement (.brts k) := rfl

theorem Length.brtc (k : BitVec 7) : Length.Statement (.brtc k) := rfl

theorem Length.brvs (k : BitVec 7) : Length.Statement (.brvs k) := rfl

theorem Length.brvc (k : BitVec 7) : Length.Statement (.brvc k) := rfl

theorem Length.brie (k : BitVec 7) : Length.Statement (.brie k) := rfl

theorem Length.brid (k : BitVec 7) : Length.Statement (.brid k) := rfl

theorem Length.mov (d : Reg) (r : Reg) : Length.Statement (.mov d r) := rfl

theorem Length.movw (d : Reg) (r : Reg) : Length.Statement (.movw d r) := rfl

theorem Length.ldi (d : Reg) (K : Byte) : Length.Statement (.ldi d K) := rfl

theorem Length.lds (d : Reg) (k : BitVec 16) : Length.Statement (.lds d k) := rfl

theorem Length.lds16 (d : Reg) (k : BitVec 7) : Length.Statement (.lds16 d k) := rfl

theorem Length.ldX (d : Reg) : Length.Statement (.ldX d) := rfl

theorem Length.ldXInc (d : Reg) : Length.Statement (.ldXInc d) := rfl

theorem Length.ldXDec (d : Reg) : Length.Statement (.ldXDec d) := rfl

theorem Length.ldY (d : Reg) : Length.Statement (.ldY d) := rfl

theorem Length.ldYInc (d : Reg) : Length.Statement (.ldYInc d) := rfl

theorem Length.ldYDec (d : Reg) : Length.Statement (.ldYDec d) := rfl

theorem Length.lddY (d : Reg) (q : BitVec 6) : Length.Statement (.lddY d q) := rfl

theorem Length.ldZ (d : Reg) : Length.Statement (.ldZ d) := rfl

theorem Length.ldZInc (d : Reg) : Length.Statement (.ldZInc d) := rfl

theorem Length.ldZDec (d : Reg) : Length.Statement (.ldZDec d) := rfl

theorem Length.lddZ (d : Reg) (q : BitVec 6) : Length.Statement (.lddZ d q) := rfl

theorem Length.sts (k : BitVec 16) (r : Reg) : Length.Statement (.sts k r) := rfl

theorem Length.sts16 (k : BitVec 7) (r : Reg) : Length.Statement (.sts16 k r) := rfl

theorem Length.stX (r : Reg) : Length.Statement (.stX r) := rfl

theorem Length.stXInc (r : Reg) : Length.Statement (.stXInc r) := rfl

theorem Length.stXDec (r : Reg) : Length.Statement (.stXDec r) := rfl

theorem Length.stY (r : Reg) : Length.Statement (.stY r) := rfl

theorem Length.stYInc (r : Reg) : Length.Statement (.stYInc r) := rfl

theorem Length.stYDec (r : Reg) : Length.Statement (.stYDec r) := rfl

theorem Length.stdY (q : BitVec 6) (r : Reg) : Length.Statement (.stdY q r) := rfl

theorem Length.stZ (r : Reg) : Length.Statement (.stZ r) := rfl

theorem Length.stZInc (r : Reg) : Length.Statement (.stZInc r) := rfl

theorem Length.stZDec (r : Reg) : Length.Statement (.stZDec r) := rfl

theorem Length.stdZ (q : BitVec 6) (r : Reg) : Length.Statement (.stdZ q r) := rfl

theorem Length.lpmR0 : Length.Statement .lpmR0 := rfl

theorem Length.lpm (d : Reg) : Length.Statement (.lpm d) := rfl

theorem Length.lpmInc (d : Reg) : Length.Statement (.lpmInc d) := rfl

theorem Length.elpmR0 : Length.Statement .elpmR0 := rfl

theorem Length.elpm (d : Reg) : Length.Statement (.elpm d) := rfl

theorem Length.elpmInc (d : Reg) : Length.Statement (.elpmInc d) := rfl

theorem Length.spm : Length.Statement .spm := rfl

theorem Length.spmInc : Length.Statement .spmInc := rfl

theorem Length.inIo (d : Reg) (A : BitVec 6) : Length.Statement (.inIo d A) := rfl

theorem Length.outIo (A : BitVec 6) (r : Reg) : Length.Statement (.outIo A r) := rfl

theorem Length.push (r : Reg) : Length.Statement (.push r) := rfl

theorem Length.pop (d : Reg) : Length.Statement (.pop d) := rfl

theorem Length.xch (d : Reg) : Length.Statement (.xch d) := rfl

theorem Length.las (d : Reg) : Length.Statement (.las d) := rfl

theorem Length.lac (d : Reg) : Length.Statement (.lac d) := rfl

theorem Length.lat (d : Reg) : Length.Statement (.lat d) := rfl

theorem Length.lsl (d : Reg) : Length.Statement (.lsl d) := rfl

theorem Length.lsr (d : Reg) : Length.Statement (.lsr d) := rfl

theorem Length.rol (d : Reg) : Length.Statement (.rol d) := rfl

theorem Length.ror (d : Reg) : Length.Statement (.ror d) := rfl

theorem Length.asr (d : Reg) : Length.Statement (.asr d) := rfl

theorem Length.swap (d : Reg) : Length.Statement (.swap d) := rfl

theorem Length.sbi (A : BitVec 5) (b : Fin 8) : Length.Statement (.sbi A b) := rfl

theorem Length.cbi (A : BitVec 5) (b : Fin 8) : Length.Statement (.cbi A b) := rfl

theorem Length.bst (d : Reg) (b : Fin 8) : Length.Statement (.bst d b) := rfl

theorem Length.bld (d : Reg) (b : Fin 8) : Length.Statement (.bld d b) := rfl

theorem Length.bset (s : Fin 8) : Length.Statement (.bset s) := rfl

theorem Length.bclr (s : Fin 8) : Length.Statement (.bclr s) := rfl

theorem Length.sec : Length.Statement .sec := rfl

theorem Length.clc : Length.Statement .clc := rfl

theorem Length.sen : Length.Statement .sen := rfl

theorem Length.cln : Length.Statement .cln := rfl

theorem Length.sez : Length.Statement .sez := rfl

theorem Length.clz : Length.Statement .clz := rfl

theorem Length.sei : Length.Statement .sei := rfl

theorem Length.cli : Length.Statement .cli := rfl

theorem Length.ses : Length.Statement .ses := rfl

theorem Length.cls : Length.Statement .cls := rfl

theorem Length.sev : Length.Statement .sev := rfl

theorem Length.clv : Length.Statement .clv := rfl

theorem Length.set : Length.Statement .set := rfl

theorem Length.clt : Length.Statement .clt := rfl

theorem Length.seh : Length.Statement .seh := rfl

theorem Length.clh : Length.Statement .clh := rfl

theorem Length.brk : Length.Statement .brk := rfl

theorem Length.nop : Length.Statement .nop := rfl

theorem Length.sleep : Length.Statement .sleep := rfl

theorem Length.wdr : Length.Statement .wdr := rfl

end Sys2Proof.Laws
end

