-- ==== Sys2Proof/Tests/Slice0.lean ====
section
/-! SUPPORT. Tests: an ill-formed term for each check of WellFormed.lean, words written out from the spec's encoding lines
for every row, single steps of spec/96_derived_vectors.md (the name of a test holds the vector's number), and for every
obligation with hypotheses a concrete state and operands that meet them together. -/

namespace Sys2Proof.Tests
open Sys2Proof Sys2Proof.Machine
set_option Elab.async false

/-! ### Configurations and states of spec/95_test_vectors.md, section 0.2 -/

def classicMap (ramEnd : Nat) : List Region := [⟨0, 0x1F, .regFile, 0⟩, ⟨0x20, 0x5F, .io, 0⟩, ⟨0x60, ramEnd, .sram, 0⟩]

/-- CFG-A: AVRe, 16-bit PC. -/
def cfgA : Config :=
  { defaultConfig with
    core := .AVRe, pcBits := .bits16, flashEnd := 0xFFFF, ramEnd := 0xFFFF, hasRampX := false, hasRampY := false
    hasRampZ := false, hasRampD := false, hasEind := false, dataMap := classicMap 0xFFFF, resetSp := 0x045F
    ackClears := List.range 200, hasDesRound := false, hasSpmEffect := false }

/-- CFG-B: AVRe, 22-bit PC, RAMPZ and EIND. -/
def cfgB : Config := { cfgA with pcBits := .bits22, flashEnd := 0x3FFFFF, hasRampZ := true, hasEind := true }

/-- CFG-C: AVRrc, 32 bytes of SRAM. -/
def cfgC : Config := { cfgA with core := .AVRrc, flashEnd := 0x1FF, ramEnd := 0x5F, dataMap := dataMapRc 0x5F 0x400 }

/-- CFG-D: AVRxm. -/
def cfgD : Config := { cfgA with core := .AVRxm, dataMap := dataMapXmega 0x3FFF }

/-- CFG-E: every pointer WIDE. -/
def cfgE : Config :=
  { cfgA with
    core := .AVRxm, hasRampX := true, hasRampY := true, hasRampZ := true, hasRampD := true
    dataMap := [⟨0, 0xFFFFFF, .sram, 0⟩], ramEnd := 0xFFFFFF }

/-- CFG-S: every pointer SMALL. -/
def cfgS : Config := { cfgA with flashEnd := 0x3FF, ramEnd := 0xDF, dataMap := classicMap 0xDF, dataClass := .small }

/-- One word of program memory replaced. -/
def withWord (s : State) (a : Nat) (w : Word) : State := s.setProg (Memory.writeWord s.prog a w)

/-- Words of program memory from a word address on. -/
def withWords (s : State) (a : Nat) : List Word → State
  | [] => s
  | w :: ws => withWords (withWord s a w) (a + 1) ws

/-- A machine after reset with its pc, SREG, the words at its pc and some registers set; SLEEP_ENABLED as in the
vectors. -/
def at_ (c : Config) (pc : PcWord) (sreg : Byte) (words : List Word) (regs : List (Reg × Byte)) : State :=
  let s := (((State.resetWith c).setSleepEnabled true).setPc pc).setSreg sreg
  withWords (regs.foldl (fun s e => s.setReg e.1 e.2) s) pc.toNat words

/-- The step answers a next state, and it is as said. -/
def leads (s : State) (p : State → Bool) : Bool :=
  match step s with
  | .next t => p t
  | _ => false

/-- The step faults as said. -/
def stops (s : State) (f : Fault) : Bool :=
  match step s with
  | .fault g => g == f
  | _ => false

/-- The step is refused as said. -/
def refuses (s : State) (r : Refusal) : Bool :=
  match step s with
  | .refused q => q == r
  | _ => false

/-- The words decode to the instructions, with nothing left over. -/
def reads (c : Config) (l : List (List Word × Instr)) : Bool :=
  l.all fun e => decide (decode c (wordBytes e.1) = .ok (e.2, []))

/-- The words are the aliases' encodings and decode to their canonical instructions. -/
def aliases (l : List (List Word × Instr)) : Bool :=
  l.all fun e => encode e.2 == e.1 && decide (decode defaultConfig (wordBytes e.1) = .ok (e.2.canonical, []))

/-! ### Well-formedness: one ill-formed term for each check -/

theorem test_wf_high_register :
    ([.subi 15 1, .sbci 15 1, .andi 15 1, .ori 15 1, .sbr 15 1, .cbr 15 1, .ser 15, .cpi 15 1, .ldi 15 1, .lds16 15 1,
      .sts16 1 15, .muls 15 16, .muls 16 15] : List Instr).all (fun i => !i.wf) = true := by decide

theorem test_wf_middle_register :
    ([.mulsu 15 16, .mulsu 16 24, .fmul 24 16, .fmuls 16 15, .fmulsu 24 23] : List Instr).all (fun i => !i.wf) = true := by
  decide

theorem test_wf_pair_register :
    ([.adiw 22 1, .adiw 25 1, .sbiw 31 1, .movw 1 0, .movw 0 31] : List Instr).all (fun i => !i.wf) = true := by decide

theorem test_wf_boundary_registers :
    ([.subi 16 1, .muls 31 16, .mulsu 16 23, .adiw 24 63, .sbiw 30 63, .movw 0 30] : List Instr).all Instr.wf = true := by
  decide

theorem test_wf_configurations : ([defaultConfig, cfgA, cfgB, cfgC, cfgD, cfgE, cfgS].all Config.wf) = true := by
  decide +kernel

theorem test_wf_configuration_checks :
    ([{ cfgA with flashEnd := 0x10000 }, { cfgA with pcWrapBits := some 17 }, { cfgA with hasEind := true },
      { cfgA with dataClass := .large }, { cfgA with resetPc := 0x10000 }, { cfgA with spBits := .bits8 },
      { cfgA with dataMap := [⟨0, 32, .regFile, 0⟩] }, { cfgC with dataMap := [⟨0, 1, .regFile, 0⟩] },
      { cfgA with dataMap := [⟨0, 64, .io, 0⟩] }, { cfgA with dataMap := [⟨1, 0, .sram, 0⟩] },
      { cfgA with dataMap := [⟨0x60, 0x10000, .sram, 0⟩] }, { cfgA with dataMap := [⟨0, 9, .sram, 0⟩, ⟨9, 10, .extIo, 0⟩] },
      { cfgA with vectorTable := [(1, 0x10000)] }] : List Config).all (fun c => !c.wf) = true := by
  decide +kernel

/-! ### Decoding, from words written out -/

/-- Words written bit by bit from the encoding lines of the arithmetic rows, d = 22, r = 9 (or the nearest the field holds). -/
theorem test_decode_arithmetic : reads defaultConfig [
    ([0b0000110101101001], .add 22 9), ([0b0001110101101001], .adc 22 9), ([0b1001011010101001], .adiw 28 0x29),
    ([0b0001100101101001], .sub 22 9), ([0b0101101001100101], .subi 22 0xa5), ([0b0000100101101001], .sbc 22 9),
    ([0b0100101001100101], .sbci 22 0xa5), ([0b1001011110101001], .sbiw 28 0x29), ([0b0010000101101001], .and 22 9),
    ([0b0111101001100101], .andi 22 0xa5), ([0b0010100101101001], .or 22 9), ([0b0110101001100101], .ori 22 0xa5),
    ([0b0010010101101001], .eor 22 9), ([0b1001010101100000], .com 22), ([0b1001010101100001], .neg 22),
    ([0b1001010101100011], .inc 22), ([0b1001010101101010], .dec 22), ([0b1001110101101001], .mul 22 9),
    ([0b0000001001100101], .muls 22 21), ([0b0000001101100101], .mulsu 22 21), ([0b0000001101101101], .fmul 22 21),
    ([0b0000001111100101], .fmuls 22 21), ([0b0000001111101101], .fmulsu 22 21), ([0b1001010010111011], .des 0xb)] = true := by decide +kernel

/-- Words written bit by bit from the encoding lines of the branch rows, d = 22, r = 9 (or the nearest the field holds). -/
theorem test_decode_branch : reads defaultConfig [
    ([0b1100101001010011], .rjmp 0xa53), ([0b1001010000001001], .ijmp), ([0b1001010000011001], .eijmp),
    ([0b1001010101011100, 0b0101110000110001], .jmp 0x2a5c31), ([0b1101101001010011], .rcall 0xa53),
    ([0b1001010100001001], .icall), ([0b1001010100011001], .eicall),
    ([0b1001010101011110, 0b0101110000110001], .call 0x2a5c31), ([0b1001010100001000], .ret),
    ([0b1001010100011000], .reti), ([0b0001000101101001], .cpse 22 9), ([0b0001010101101001], .cp 22 9),
    ([0b0000010101101001], .cpc 22 9), ([0b0011101001100101], .cpi 22 0xa5), ([0b1111110010010101], .sbrc 9 5),
    ([0b1111111010010101], .sbrs 9 5), ([0b1001100110101101], .sbic 0x15 5), ([0b1001101110101101], .sbis 0x15 5),
    ([0b1111001010011101], .brbs 5 0x53), ([0b1111011010011101], .brbc 5 0x53)] = true := by decide +kernel

/-- Words written bit by bit from the encoding lines of the transfer rows, d = 22, r = 9 (or the nearest the field holds). -/
theorem test_decode_transfer : reads defaultConfig [
    ([0b0010110101101001], .mov 22 9), ([0b0000000110110101], .movw 22 10), ([0b1110101001100101], .ldi 22 0xa5),
    ([0b1001000101100000, 0b1010010111000011], .lds 22 0xa5c3), ([0b1001000101101100], .ldX 22),
    ([0b1001000101101101], .ldXInc 22), ([0b1001000101101110], .ldXDec 22), ([0b1000000101101000], .ldY 22),
    ([0b1001000101101001], .ldYInc 22), ([0b1001000101101010], .ldYDec 22), ([0b1010010101101001], .lddY 22 0x29),
    ([0b1000000101100000], .ldZ 22), ([0b1001000101100001], .ldZInc 22), ([0b1001000101100010], .ldZDec 22),
    ([0b1010010101100001], .lddZ 22 0x29), ([0b1001001010010000, 0b1010010111000011], .sts 0xa5c3 9),
    ([0b1001001010011100], .stX 9), ([0b1001001010011101], .stXInc 9), ([0b1001001010011110], .stXDec 9),
    ([0b1000001010011000], .stY 9), ([0b1001001010011001], .stYInc 9), ([0b1001001010011010], .stYDec 9),
    ([0b1010011010011001], .stdY 0x29 9), ([0b1000001010010000], .stZ 9), ([0b1001001010010001], .stZInc 9),
    ([0b1001001010010010], .stZDec 9), ([0b1010011010010001], .stdZ 0x29 9), ([0b1001010111001000], .lpmR0),
    ([0b1001000101100100], .lpm 22), ([0b1001000101100101], .lpmInc 22), ([0b1001010111011000], .elpmR0),
    ([0b1001000101100110], .elpm 22), ([0b1001000101100111], .elpmInc 22), ([0b1001010111101000], .spm),
    ([0b1001010111111000], .spmInc), ([0b1011010101101100], .inIo 22 0x2c), ([0b1011110010011100], .outIo 0x2c 9),
    ([0b1001001010011111], .push 9), ([0b1001000101101111], .pop 22), ([0b1001001101100100], .xch 22),
    ([0b1001001101100101], .las 22), ([0b1001001101100110], .lac 22), ([0b1001001101100111], .lat 22)] = true := by decide +kernel

/-- Words written bit by bit from the encoding lines of the bit rows, d = 22, r = 9 (or the nearest the field holds). -/
theorem test_decode_bit : reads defaultConfig [
    ([0b1001010101100110], .lsr 22), ([0b1001010101100111], .ror 22), ([0b1001010101100101], .asr 22),
    ([0b1001010101100010], .swap 22), ([0b1001101010101101], .sbi 0x15 5), ([0b1001100010101101], .cbi 0x15 5),
    ([0b1111101101100101], .bst 22 5), ([0b1111100101100101], .bld 22 5), ([0b1001010001011000], .bset 5),
    ([0b1001010011011000], .bclr 5)] = true := by decide +kernel

/-- Words written bit by bit from the encoding lines of the control rows, d = 22, r = 9 (or the nearest the field holds). -/
theorem test_decode_control : reads defaultConfig [
    ([0b1001010110011000], .brk), ([0b0000000000000000], .nop), ([0b1001010110001000], .sleep),
    ([0b1001010110101000], .wdr)] = true := by decide +kernel

/-- The 16-bit LDS and STS of AVRrc (R108, R255, R270). -/
theorem test_decode_short_direct : reads cfgC [
    ([0b1010010101100011], .lds16 22 0x53), ([0b1010110101010011], .sts16 0x53 21)] = true := by decide +kernel

/-- The alias rows: the word of each line is the alias's encoding, and decodes to its canonical instruction (R115). -/
theorem test_decode_alias : aliases [
    ([0b0110101001100101], .sbr 22 0xa5), ([0b0111101001100101], .cbr 22 0x5a), ([0b0010001101100110], .tst 22),
    ([0b0010011101100110], .clr 22), ([0b1110111101101111], .ser 22), ([0b1111001010011001], .breq 0x53),
    ([0b1111011010011001], .brne 0x53), ([0b1111001010011000], .brcs 0x53), ([0b1111011010011000], .brcc 0x53),
    ([0b1111011010011000], .brsh 0x53), ([0b1111001010011000], .brlo 0x53), ([0b1111001010011010], .brmi 0x53),
    ([0b1111011010011010], .brpl 0x53), ([0b1111011010011100], .brge 0x53), ([0b1111001010011100], .brlt 0x53),
    ([0b1111001010011101], .brhs 0x53), ([0b1111011010011101], .brhc 0x53), ([0b1111001010011110], .brts 0x53),
    ([0b1111011010011110], .brtc 0x53), ([0b1111001010011011], .brvs 0x53), ([0b1111011010011011], .brvc 0x53),
    ([0b1111001010011111], .brie 0x53), ([0b1111011010011111], .brid 0x53), ([0b0000111101100110], .lsl 22),
    ([0b0001111101100110], .rol 22), ([0b1001010000001000], .sec), ([0b1001010010001000], .clc),
    ([0b1001010000101000], .sen), ([0b1001010010101000], .cln), ([0b1001010000011000], .sez),
    ([0b1001010010011000], .clz), ([0b1001010001111000], .sei), ([0b1001010011111000], .cli),
    ([0b1001010001001000], .ses), ([0b1001010011001000], .cls), ([0b1001010000111000], .sev),
    ([0b1001010010111000], .clv), ([0b1001010001101000], .set), ([0b1001010011101000], .clt),
    ([0b1001010001011000], .seh), ([0b1001010011011000], .clh)] = true := by decide +kernel

/-! ### Single steps: vectors of spec/96_derived_vectors.md -/

theorem test_V40_1_add :
    leads (at_ cfgA 0x100 0x0 [0x0F01] [(16, 0x7F), (17, 0x1)])
      (fun t => t.reg 16 == 0x80 && t.sreg == 0x2C && t.pc == 0x101) = true := by decide +kernel

theorem test_V40_4_adc :
    leads (at_ cfgA 0x100 0x1 [0x1C31] [(1, 0xFF), (3, 0x0)])
      (fun t => t.sreg == 0x23 && t.pc == 0x101) = true := by decide +kernel

theorem test_V40_7_adiw :
    leads (at_ cfgA 0x100 0x0 [0x96FF] [(30, 0xC1), (31, 0x7F)])
      (fun t => t.reg 30 == 0x0 && t.reg 31 == 0x80 && t.sreg == 0xC && t.pc == 0x101) = true := by decide +kernel

theorem test_V40_10_sub :
    leads (at_ cfgA 0x100 0x0 [0x1B01] [(16, 0x80), (17, 0x1)])
      (fun t => t.reg 16 == 0x7F && t.sreg == 0x38 && t.pc == 0x101) = true := by decide +kernel

theorem test_V40_12_subi :
    leads (at_ cfgA 0x100 0x0 [0x5203] [(16, 0x10)])
      (fun t => t.reg 16 == 0xED && t.sreg == 0x35 && t.pc == 0x101) = true := by decide +kernel

theorem test_V40_15_sbc :
    leads (at_ cfgA 0x100 0x3 [0x0831] [(1, 0xFF), (3, 0x0)])
      (fun t => t.sreg == 0x23 && t.pc == 0x101) = true := by decide +kernel

theorem test_V40_16_sbci :
    leads (at_ cfgA 0x100 0x1 [0x441F] [(17, 0x50)])
      (fun t => t.reg 17 == 0x0 && t.sreg == 0x20 && t.pc == 0x101) = true := by decide +kernel

theorem test_V40_17_sbiw :
    leads (at_ cfgA 0x100 0x0 [0x9701] [(24, 0x0), (25, 0x0)])
      (fun t => t.reg 24 == 0xFF && t.reg 25 == 0xFF && t.sreg == 0x15 && t.pc == 0x101) = true := by decide +kernel

theorem test_V40_19_and :
    leads (at_ cfgA 0x100 0x9 [0x2023] [(2, 0xF0), (3, 0xF)])
      (fun t => t.reg 2 == 0x0 && t.sreg == 0x3 && t.pc == 0x101) = true := by decide +kernel

theorem test_V40_20_andi :
    leads (at_ cfgA 0x100 0x0 [0x701F] [(17, 0xA5)])
      (fun t => t.reg 17 == 0x5 && t.sreg == 0x0 && t.pc == 0x101) = true := by decide +kernel

theorem test_V40_21_or :
    leads (at_ cfgA 0x100 0x8 [0x2AF0] [(15, 0x80), (16, 0x1)])
      (fun t => t.reg 15 == 0x81 && t.sreg == 0x14 && t.pc == 0x101) = true := by decide +kernel

theorem test_V40_22_ori :
    leads (at_ cfgA 0x100 0x0 [0x6F00] [(16, 0xA)])
      (fun t => t.reg 16 == 0xFA && t.sreg == 0x14 && t.pc == 0x101) = true := by decide +kernel

theorem test_V40_24_eor :
    leads (at_ cfgA 0x100 0x0 [0x2606] [(0, 0xAA), (22, 0xFF)])
      (fun t => t.reg 0 == 0x55 && t.sreg == 0x0 && t.pc == 0x101) = true := by decide +kernel

theorem test_V40_26_com :
    leads (at_ cfgA 0x100 0x0 [0x9440] [(4, 0x0)])
      (fun t => t.reg 4 == 0xFF && t.sreg == 0x15 && t.pc == 0x101) = true := by decide +kernel

theorem test_V40_27_neg :
    leads (at_ cfgA 0x100 0x0 [0x94B1] [(11, 0x80)])
      (fun t => t.sreg == 0xD && t.pc == 0x101) = true := by decide +kernel

theorem test_V40_29_neg :
    leads (at_ cfgA 0x100 0x0 [0x94B1] [(11, 0x1)])
      (fun t => t.reg 11 == 0xFF && t.sreg == 0x35 && t.pc == 0x101) = true := by decide +kernel

theorem test_V40_30_sbr :
    leads (at_ cfgA 0x100 0x0 [0x6003] [(16, 0x80)])
      (fun t => t.reg 16 == 0x83 && t.sreg == 0x14 && t.pc == 0x101) = true := by decide +kernel

theorem test_V40_31_cbr :
    leads (at_ cfgA 0x100 0x0 [0x700F] [(16, 0xA5)])
      (fun t => t.reg 16 == 0x5 && t.sreg == 0x0 && t.pc == 0x101) = true := by decide +kernel

theorem test_V40_32_inc :
    leads (at_ cfgA 0x100 0x1 [0x9563] [(22, 0x7F)])
      (fun t => t.reg 22 == 0x80 && t.sreg == 0xD && t.pc == 0x101) = true := by decide +kernel

theorem test_V40_34_dec :
    leads (at_ cfgA 0x100 0x0 [0x951A] [(17, 0x80)])
      (fun t => t.reg 17 == 0x7F && t.sreg == 0x18 && t.pc == 0x101) = true := by decide +kernel

theorem test_V40_38_tst :
    leads (at_ cfgA 0x100 0x0 [0x2000] [(0, 0x80)])
      (fun t => t.sreg == 0x14 && t.pc == 0x101) = true := by decide +kernel

theorem test_V40_39_clr :
    leads (at_ cfgA 0x100 0xFF [0x2722] [(18, 0x77)])
      (fun t => t.reg 18 == 0x0 && t.sreg == 0xE3 && t.pc == 0x101) = true := by decide +kernel

theorem test_V40_40_ser :
    leads (at_ cfgA 0x100 0x2 [0xEF1F] [])
      (fun t => t.reg 17 == 0xFF && t.sreg == 0x2 && t.pc == 0x101) = true := by decide +kernel

theorem test_V40_41_cp :
    leads (at_ cfgA 0x100 0x0 [0x1643] [(4, 0x10), (19, 0x20)])
      (fun t => t.sreg == 0x15 && t.pc == 0x101) = true := by decide +kernel

theorem test_V40_44_cpc :
    leads (at_ cfgA 0x100 0x3 [0x0431] [(1, 0x11), (3, 0x12)])
      (fun t => t.sreg == 0x2 && t.pc == 0x101) = true := by decide +kernel

theorem test_V40_47_cpi :
    leads (at_ cfgA 0x100 0x0 [0x3800] [(16, 0x7F)])
      (fun t => t.sreg == 0xD && t.pc == 0x101) = true := by decide +kernel

theorem test_V41_1_mul :
    leads (at_ cfgA 0x100 0x0 [0x9C54] [(4, 0xFF), (5, 0xFF)])
      (fun t => t.reg 0 == 0x1 && t.reg 1 == 0xFE && t.sreg == 0x1 && t.pc == 0x101) = true := by decide +kernel

theorem test_V41_3_mul :
    leads (at_ cfgA 0x100 0x0 [0x9C01] [(0, 0x10), (1, 0x10)])
      (fun t => t.reg 0 == 0x0 && t.reg 1 == 0x1 && t.sreg == 0x0 && t.pc == 0x101) = true := by decide +kernel

theorem test_V41_5_muls :
    leads (at_ cfgA 0x100 0x0 [0x0254] [(20, 0x1), (21, 0xFF)])
      (fun t => t.reg 0 == 0xFF && t.reg 1 == 0xFF && t.sreg == 0x1 && t.pc == 0x101) = true := by decide +kernel

theorem test_V41_6_mulsu :
    leads (at_ cfgA 0x100 0x0 [0x0374] [(20, 0xFF), (23, 0xFF)])
      (fun t => t.reg 0 == 0x1 && t.reg 1 == 0xFF && t.sreg == 0x1 && t.pc == 0x101) = true := by decide +kernel

theorem test_V41_9_fmul :
    leads (at_ cfgA 0x100 0x0 [0x036C] [(20, 0xFF), (22, 0xFF)])
      (fun t => t.reg 0 == 0x2 && t.reg 1 == 0xFC && t.sreg == 0x1 && t.pc == 0x101) = true := by decide +kernel

theorem test_V41_12_fmuls :
    leads (at_ cfgA 0x100 0x0 [0x03F6] [(22, 0x40), (23, 0xC0)])
      (fun t => t.reg 0 == 0x0 && t.reg 1 == 0xE0 && t.sreg == 0x1 && t.pc == 0x101) = true := by decide +kernel

theorem test_V41_13_fmulsu :
    leads (at_ cfgA 0x100 0x0 [0x03FC] [(20, 0x80), (23, 0x80)])
      (fun t => t.reg 0 == 0x0 && t.reg 1 == 0x80 && t.sreg == 0x1 && t.pc == 0x101) = true := by decide +kernel

theorem test_V42_2_rjmp :
    leads (at_ cfgA 0x100 0x0 [0xC800] [])
      (fun t => t.sreg == 0x0 && t.pc == 0xF901) = true := by decide +kernel

theorem test_V42_5_ijmp :
    leads (at_ cfgA 0x100 0x0 [0x9409] [(30, 0x34), (31, 0x12)])
      (fun t => t.sreg == 0x0 && t.pc == 0x1234) = true := by decide +kernel

theorem test_V42_6_jmp :
    leads (at_ cfgA 0x100 0x0 [0x940C, 0x1234] [])
      (fun t => t.sreg == 0x0 && t.pc == 0x1234) = true := by decide +kernel

theorem test_V42_7_rcall :
    leads ((at_ cfgA 0x123 0x0 [0xD0DC] []).setSp 0x45F)
      (fun t => t.sram 0x45E == some 0x1 && t.sram 0x45F == some 0x24 && t.sreg == 0x0 && t.sp == 0x45D && t.pc == 0x200) = true := by decide +kernel

theorem test_V42_8_icall :
    leads ((at_ cfgA 0x123 0x0 [0x9509] [(30, 0x0), (31, 0x20)]).setSp 0x45F)
      (fun t => t.sram 0x45E == some 0x1 && t.sram 0x45F == some 0x24 && t.sreg == 0x0 && t.sp == 0x45D && t.pc == 0x2000) = true := by decide +kernel

theorem test_V42_9_call :
    leads ((at_ cfgA 0x123 0x0 [0x940E, 0x3000] []).setSp 0x45F)
      (fun t => t.sram 0x45E == some 0x1 && t.sram 0x45F == some 0x25 && t.sreg == 0x0 && t.sp == 0x45D && t.pc == 0x3000) = true := by decide +kernel

theorem test_V42_11_reti :
    leads ((sramWrite (sramWrite (at_ cfgA 0x200 0x0 [0x9518] []) 0x45E 0x1) 0x45F 0x25).setSp 0x45D)
      (fun t => t.sreg == 0x80 && t.sp == 0x45F && t.pc == 0x125 && t.irqInhibit) = true := by decide +kernel

theorem test_V42_12_reti :
    leads ((sramWrite (sramWrite (at_ cfgD 0x200 0x0 [0x9518] []) 0x2FFE 0x1) 0x2FFF 0x25).setSp 0x2FFD)
      (fun t => t.sreg == 0x0 && t.sp == 0x2FFF && t.pc == 0x125 && t.irqInhibit) = true := by decide +kernel

theorem test_V42_13_rcall :
    leads ((at_ cfgB 0x12345 0x0 [0xDEBA] []).setSp 0x21FF)
      (fun t => t.sram 0x21FD == some 0x1 && t.sram 0x21FE == some 0x23 && t.sram 0x21FF == some 0x46 && t.sreg == 0x0 && t.sp == 0x21FC && t.pc == 0x12200) = true := by decide +kernel

theorem test_V42_14_ret :
    leads ((sramWrite (sramWrite (sramWrite (at_ cfgB 0x200 0x0 [0x9508] []) 0x21FD 0xC1) 0x21FE 0x23) 0x21FF 0x46).setSp 0x21FC)
      (fun t => t.sreg == 0x0 && t.sp == 0x21FF && t.pc == 0x12346) = true := by decide +kernel

theorem test_V42_16_eicall :
    leads (((at_ cfgB 0x12345 0x0 [0x9519] [(30, 0x0), (31, 0x10)]).setEind 0x5).setSp 0x21FF)
      (fun t => t.sram 0x21FD == some 0x1 && t.sram 0x21FE == some 0x23 && t.sram 0x21FF == some 0x46 && t.sreg == 0x0 && t.sp == 0x21FC && t.pc == 0x51000) = true := by decide +kernel

theorem test_V42_17_eijmp :
    leads ((at_ cfgB 0x100 0x0 [0x9419] [(30, 0xFF), (31, 0xFF)]).setEind 0xFF)
      (fun t => t.sreg == 0x0 && t.pc == 0x3FFFFF) = true := by decide +kernel

theorem test_V42_22_cpse :
    leads (at_ cfgA 0x100 0x0 [0x1040, 0x940C, 0x0000] [(0, 0x11), (4, 0x11)])
      (fun t => t.sreg == 0x0 && t.pc == 0x103) = true := by decide +kernel

theorem test_V42_25_sbrc :
    leads (at_ cfgA 0x100 0x0 [0xFC07, 0x0000] [(0, 0x7F)])
      (fun t => t.sreg == 0x0 && t.pc == 0x102) = true := by decide +kernel

theorem test_V42_27_sbrs :
    leads (at_ cfgA 0x100 0x0 [0xFE07, 0x940E, 0x0000] [(0, 0x80)])
      (fun t => t.sreg == 0x0 && t.pc == 0x103) = true := by decide +kernel

theorem test_V42_31_breq :
    leads (at_ cfgA 0x100 0x2 [0xF1F9] [])
      (fun t => t.sreg == 0x2 && t.pc == 0x140) = true := by decide +kernel

theorem test_V42_33_brne :
    leads (at_ cfgA 0x100 0x0 [0xF601] [])
      (fun t => t.sreg == 0x0 && t.pc == 0xC1) = true := by decide +kernel

theorem test_V42_34_brbs :
    leads (at_ cfgA 0x100 0x40 [0xF07E] [])
      (fun t => t.sreg == 0x40 && t.pc == 0x110) = true := by decide +kernel

theorem test_V42_35_brbc :
    leads (at_ cfgA 0x100 0x2 [0xF479] [])
      (fun t => t.sreg == 0x2 && t.pc == 0x101) = true := by decide +kernel

theorem test_V44_1_lsl :
    leads (at_ cfgA 0x100 0x0 [0x0C00] [(0, 0x81)])
      (fun t => t.reg 0 == 0x2 && t.sreg == 0x19 && t.pc == 0x101) = true := by decide +kernel

theorem test_V44_4_lsr :
    leads (at_ cfgA 0x100 0x4 [0x9406] [(0, 0x1)])
      (fun t => t.reg 0 == 0x0 && t.sreg == 0x1B && t.pc == 0x101) = true := by decide +kernel

theorem test_V44_7_rol :
    leads (at_ cfgA 0x100 0x0 [0x1F33] [(19, 0x7F)])
      (fun t => t.reg 19 == 0xFE && t.sreg == 0x2C && t.pc == 0x101) = true := by decide +kernel

theorem test_V44_8_ror :
    leads (at_ cfgA 0x100 0x1 [0x9527] [(18, 0x1)])
      (fun t => t.reg 18 == 0x80 && t.sreg == 0x15 && t.pc == 0x101) = true := by decide +kernel

theorem test_V44_12_asr :
    leads (at_ cfgA 0x100 0x0 [0x9505] [(16, 0x81)])
      (fun t => t.reg 16 == 0xC0 && t.sreg == 0x15 && t.pc == 0x101) = true := by decide +kernel

theorem test_V44_14_swap :
    leads (at_ cfgA 0x100 0xFF [0x9412] [(1, 0xA5)])
      (fun t => t.reg 1 == 0x5A && t.sreg == 0xFF && t.pc == 0x101) = true := by decide +kernel

theorem test_V44_18_bst :
    leads (at_ cfgA 0x100 0xFF [0xFA12] [(1, 0xFB)])
      (fun t => t.sreg == 0xBF && t.pc == 0x101) = true := by decide +kernel

theorem test_V44_19_bld :
    leads (at_ cfgA 0x100 0x40 [0xF804] [(0, 0x0)])
      (fun t => t.reg 0 == 0x10 && t.sreg == 0x40 && t.pc == 0x101) = true := by decide +kernel

theorem test_V44_21_bset :
    leads (at_ cfgA 0x100 0x0 [0x9468] [])
      (fun t => t.sreg == 0x40 && t.pc == 0x101) = true := by decide +kernel

theorem test_V44_24_sei :
    leads (at_ cfgA 0x100 0x80 [0x9478] [])
      (fun t => t.sreg == 0x80 && t.pc == 0x101 && t.irqInhibit) = true := by decide +kernel

theorem test_V44_26_cli :
    leads (at_ cfgA 0x100 0xFF [0x94F8] [])
      (fun t => t.sreg == 0x7F && t.pc == 0x101) = true := by decide +kernel

theorem test_V45_1_nop :
    leads (at_ cfgA 0x100 0xA5 [0x0000] [])
      (fun t => t.sreg == 0xA5 && t.pc == 0x101) = true := by decide +kernel

theorem test_V45_2_sleep :
    leads (at_ cfgA 0x100 0x80 [0x9588] [])
      (fun t => t.sreg == 0x80 && t.pc == 0x101 && t.run == .sleeping) = true := by decide +kernel

theorem test_V45_4_break :
    leads (at_ cfgA 0x100 0x0 [0x9598] [])
      (fun t => t.sreg == 0x0 && t.pc == 0x101) = true := by decide +kernel

theorem test_V43_2_movw :
    leads (at_ cfgA 0x100 0x0 [0x0180] [(0, 0x34), (1, 0x12)])
      (fun t => t.reg 16 == 0x34 && t.reg 17 == 0x12 && t.sreg == 0x0 && t.pc == 0x101) = true := by decide +kernel

theorem test_V43_4_ldi :
    leads (at_ cfgA 0x100 0x0 [0xEFE0] [])
      (fun t => t.reg 30 == 0xF0 && t.sreg == 0x0 && t.pc == 0x101) = true := by decide +kernel

theorem test_V43_7_lds :
    leads (at_ cfgA 0x100 0x81 [0x9020, 0x005F] [])
      (fun t => t.reg 2 == 0x81 && t.sreg == 0x81 && t.pc == 0x102) = true := by decide +kernel

theorem test_V43_9_sts :
    leads (at_ cfgA 0x100 0x0 [0x9220, 0x005F] [(2, 0x80)])
      (fun t => t.sreg == 0x80 && t.pc == 0x102 && t.irqInhibit) = true := by decide +kernel

theorem test_V43_12_ld :
    leads (sramWrite (at_ cfgA 0x100 0x0 [0x900D] [(26, 0xFF), (27, 0x0)]) 0xFF 0x22)
      (fun t => t.reg 0 == 0x22 && t.reg 26 == 0x0 && t.reg 27 == 0x1 && t.sreg == 0x0 && t.pc == 0x101) = true := by decide +kernel

theorem test_V43_14_ld :
    leads (sramWrite (at_ cfgA 0x100 0x0 [0x903E] [(26, 0x0), (27, 0x1)]) 0xFF 0x33)
      (fun t => t.reg 3 == 0x33 && t.reg 26 == 0xFF && t.reg 27 == 0x0 && t.sreg == 0x0 && t.pc == 0x101) = true := by decide +kernel

theorem test_V43_16_ld :
    stops (sramWrite (at_ cfgA 0x100 0x0 [0x91AD] [(26, 0x60), (27, 0x0)]) 0x60 0x44) .undefinedCombination = true := by decide +kernel

theorem test_V43_19_ld :
    leads (sramWrite (at_ cfgA 0x100 0x0 [0x9009] [(28, 0x60), (29, 0x0)]) 0x60 0x66)
      (fun t => t.reg 0 == 0x66 && t.reg 28 == 0x61 && t.sreg == 0x0 && t.pc == 0x101) = true := by decide +kernel

theorem test_V43_20_ld :
    leads (sramWrite (at_ cfgA 0x100 0x0 [0x903A] [(28, 0x63), (29, 0x0)]) 0x62 0x77)
      (fun t => t.reg 3 == 0x77 && t.reg 28 == 0x62 && t.sreg == 0x0 && t.pc == 0x101) = true := by decide +kernel

theorem test_V43_21_ldd :
    leads (sramWrite (at_ cfgA 0x100 0x0 [0x804A] [(28, 0x62), (29, 0x0)]) 0x64 0x88)
      (fun t => t.reg 4 == 0x88 && t.sreg == 0x0 && t.pc == 0x101) = true := by decide +kernel

theorem test_V43_26_ld :
    leads (sramWrite (at_ cfgA 0x100 0x0 [0x9032] [(30, 0x63), (31, 0x0)]) 0x62 0xDD)
      (fun t => t.reg 3 == 0xDD && t.reg 30 == 0x62 && t.sreg == 0x0 && t.pc == 0x101) = true := by decide +kernel

theorem test_V43_29_ld :
    leads (at_ cfgA 0x100 0x0 [0x905C] [(16, 0x3C), (26, 0x10), (27, 0x0)])
      (fun t => t.reg 5 == 0x3C && t.sreg == 0x0 && t.pc == 0x101) = true := by decide +kernel

theorem test_V43_31_st :
    leads (at_ cfgA 0x100 0x0 [0x920D] [(0, 0x34), (26, 0x60), (27, 0x0)])
      (fun t => t.reg 26 == 0x61 && t.sram 0x60 == some 0x34 && t.sreg == 0x0 && t.pc == 0x101) = true := by decide +kernel

theorem test_V43_37_st :
    leads (at_ cfgA 0x100 0x0 [0x923A] [(3, 0x56), (28, 0x0), (29, 0x2)])
      (fun t => t.reg 28 == 0xFF && t.reg 29 == 0x1 && t.sram 0x1FF == some 0x56 && t.sreg == 0x0 && t.pc == 0x101) = true := by decide +kernel

theorem test_V43_42_std :
    leads (at_ cfgA 0x100 0x0 [0xAE47] [(4, 0xF0), (30, 0x1), (31, 0x1)])
      (fun t => t.sram 0x140 == some 0xF0 && t.sreg == 0x0 && t.pc == 0x101) = true := by decide +kernel

theorem test_V43_45_lpm :
    leads (withWord (at_ cfgA 0x100 0x0 [0x95C8] [(30, 0xF0), (31, 0x0)]) 0x78 0x5876)
      (fun t => t.reg 0 == 0x76 && t.sreg == 0x0 && t.pc == 0x101) = true := by decide +kernel

theorem test_V43_46_lpm :
    leads (withWord (at_ cfgA 0x100 0x0 [0x9104] [(30, 0xF1), (31, 0x0)]) 0x78 0x5876)
      (fun t => t.reg 16 == 0x58 && t.sreg == 0x0 && t.pc == 0x101) = true := by decide +kernel

theorem test_V43_47_lpm :
    leads (withWord (at_ cfgA 0x100 0x0 [0x9105] [(30, 0xFF), (31, 0x0)]) 0x7F 0xBEEF)
      (fun t => t.reg 16 == 0xBE && t.reg 30 == 0x0 && t.reg 31 == 0x1 && t.sreg == 0x0 && t.pc == 0x101) = true := by decide +kernel

theorem test_V43_50_elpm :
    leads ((withWord (at_ cfgB 0x100 0x0 [0x95D8] [(30, 0x0), (31, 0x80)]) 0xC000 0x3738).setRamp .Z 0x1)
      (fun t => t.reg 0 == 0x38 && t.sreg == 0x0 && t.pc == 0x101) = true := by decide +kernel

theorem test_V43_52_elpm :
    leads ((withWord (at_ cfgB 0x100 0x0 [0x9107] [(30, 0xFF), (31, 0xFF)]) 0xFFFF 0xA1B2).setRamp .Z 0x1)
      (fun t => t.reg 16 == 0xA1 && t.reg 30 == 0x0 && t.reg 31 == 0x0 && t.ramp .Z == 0x2 && t.sreg == 0x0 && t.pc == 0x101) = true := by decide +kernel

theorem test_V43_54_lpm :
    stops (at_ { cfgA with flashEnd := 0x3FFF } 0x100 0x0 [0x9104] [(30, 0x0), (31, 0x80)]) (.unmappedAddress 0x8000) = true := by decide +kernel

theorem test_V43_58_in :
    leads (at_ cfgA 0x100 0xA5 [0xB70F] [])
      (fun t => t.reg 16 == 0xA5 && t.sreg == 0xA5 && t.pc == 0x101) = true := by decide +kernel

theorem test_V43_62_out :
    leads (at_ cfgA 0x100 0x0 [0xBF0F] [(16, 0xFF)])
      (fun t => t.sreg == 0xFF && t.pc == 0x101 && t.irqInhibit) = true := by decide +kernel

theorem test_V43_64_out :
    leads ((at_ cfgA 0x100 0x0 [0xBF0E] [(16, 0x2)]).setSp 0x45F)
      (fun t => t.sreg == 0x0 && t.sp == 0x25F && t.pc == 0x101) = true := by decide +kernel

theorem test_V43_66_push :
    leads ((at_ cfgA 0x100 0x0 [0x92EF] [(14, 0xE1)]).setSp 0x45F)
      (fun t => t.sram 0x45F == some 0xE1 && t.sreg == 0x0 && t.sp == 0x45E && t.pc == 0x101) = true := by decide +kernel

theorem test_V43_67_pop :
    leads ((sramWrite (at_ cfgA 0x100 0x0 [0x90DF] []) 0x45F 0xD1).setSp 0x45E)
      (fun t => t.reg 13 == 0xD1 && t.sreg == 0x0 && t.sp == 0x45F && t.pc == 0x101) = true := by decide +kernel

theorem test_V43_69_xch :
    leads (sramWrite (at_ cfgD 0x100 0x0 [0x9304] [(16, 0xF), (30, 0x0), (31, 0x21)]) 0x2100 0xF0)
      (fun t => t.reg 16 == 0xF0 && t.sram 0x2100 == some 0xF && t.sreg == 0x0 && t.pc == 0x101) = true := by decide +kernel

theorem test_V43_70_las :
    leads (sramWrite (at_ cfgD 0x100 0x0 [0x9305] [(16, 0xF), (30, 0x0), (31, 0x21)]) 0x2100 0xF1)
      (fun t => t.reg 16 == 0xF1 && t.sram 0x2100 == some 0xFF && t.sreg == 0x0 && t.pc == 0x101) = true := by decide +kernel

theorem test_V43_71_lac :
    leads (sramWrite (at_ cfgD 0x100 0x0 [0x9306] [(16, 0xF), (30, 0x0), (31, 0x21)]) 0x2100 0xF1)
      (fun t => t.reg 16 == 0xF1 && t.sram 0x2100 == some 0xF0 && t.sreg == 0x0 && t.pc == 0x101) = true := by decide +kernel

theorem test_V43_72_lat :
    leads (sramWrite (at_ cfgD 0x100 0x0 [0x9307] [(16, 0xF), (30, 0x0), (31, 0x21)]) 0x2100 0xF1)
      (fun t => t.reg 16 == 0xF1 && t.sram 0x2100 == some 0xFE && t.sreg == 0x0 && t.pc == 0x101) = true := by decide +kernel

theorem test_V60_1_nop :
    leads (((at_ cfgA 0x123 0x80 [0x0000] []).setSp 0x45F).setIrqPending [3])
      (fun t => t.sram 0x45E == some 0x1 && t.sram 0x45F == some 0x23 && t.sreg == 0x0 && t.sp == 0x45D && t.pc == 0x6) = true := by decide +kernel

theorem test_V60_3_nop :
    leads (((at_ cfgA 0x123 0x80 [0x0000] []).setInhibit true).setIrqPending [3])
      (fun t => t.sreg == 0x80 && t.pc == 0x124) = true := by decide +kernel

theorem test_V60_4_nop :
    leads (((at_ cfgA 0x123 0x80 [0x0000] []).setSp 0x45F).setIrqPending [1,3])
      (fun t => t.sram 0x45E == some 0x1 && t.sram 0x45F == some 0x23 && t.sreg == 0x0 && t.sp == 0x45D && t.pc == 0x2) = true := by decide +kernel

theorem test_V60_5_nop :
    leads (((at_ cfgD 0x123 0x80 [0x0000] []).setSp 0x2FFF).setIrqPending [3])
      (fun t => t.sram 0x2FFE == some 0x1 && t.sram 0x2FFF == some 0x23 && t.sreg == 0x80 && t.sp == 0x2FFD && t.pc == 0x6) = true := by decide +kernel

theorem test_V60_6_nop :
    leads ((((at_ cfgA 0x124 0x80 [0x0000] []).setSp 0x45F).setRun .sleeping).setIrqPending [2])
      (fun t => t.sram 0x45E == some 0x1 && t.sram 0x45F == some 0x24 && t.sreg == 0x0 && t.sp == 0x45D && t.pc == 0x4 && t.run == .running) = true := by decide +kernel

theorem test_V60_8_nop :
    leads (((at_ cfgB 0x12345 0x80 [0x0000] []).setSp 0x21FF).setIrqPending [2])
      (fun t => t.sram 0x21FD == some 0x1 && t.sram 0x21FE == some 0x23 && t.sram 0x21FF == some 0x45 && t.sreg == 0x0 && t.sp == 0x21FC && t.pc == 0x4) = true := by decide +kernel

theorem test_VRC_1_lds16 :
    leads (sramWrite (at_ cfgC 0x100 0x0 [0xA100] []) 0x40 0x5A)
      (fun t => t.reg 16 == 0x5A && t.sreg == 0x0 && t.pc == 0x101) = true := by decide +kernel

theorem test_VRC_4_sts16 :
    leads (at_ cfgC 0x100 0x0 [0xAB10] [(17, 0xE7)])
      (fun t => t.sram 0x50 == some 0xE7 && t.sreg == 0x0 && t.pc == 0x101) = true := by decide +kernel

theorem test_VRC_8_add :
    stops (at_ cfgC 0x100 0x0 [0x0EF0] [(16, 0x1)]) (.registerOutOfRange 15) = true := by decide +kernel

theorem test_VRC_10_ld :
    leads (withWord (at_ cfgC 0x100 0x0 [0x8100] [(30, 0x0), (31, 0x40)]) 0x0 0xC00F)
      (fun t => t.reg 16 == 0xF && t.sreg == 0x0 && t.pc == 0x101) = true := by decide +kernel

theorem test_VRC_12_st :
    stops (at_ cfgC 0x100 0x0 [0x8300] [(16, 0x0), (30, 0x0), (31, 0x40)]) (.writeToFlashMapping 0x4000) = true := by decide +kernel

theorem test_VF_1_dw :
    stops (at_ cfgA 0x100 0x0 [0xFFFF] []) (.reservedOpcode 0xFFFF) = true := by decide +kernel

theorem test_VF_6_call :
    stops (at_ { cfgA with flashEnd := 0xFFF } 0xFFF 0x0 [0x940E, 0x0000] []) (.fetchOutOfRange 0x1000) = true := by decide +kernel

theorem test_VF_7_cpse :
    stops (at_ { cfgA with flashEnd := 0xFFF } 0xFFF 0x0 [0x1000, 0x0000] [(0, 0x1)]) (.fetchOutOfRange 0x1000) = true := by decide +kernel

theorem test_VF_16_ld :
    stops (at_ cfgA 0x100 0x0 [0x900C] [(26, 0x0), (27, 0x1)]) (.unwrittenMemory 0x100) = true := by decide +kernel

theorem test_VW_1_ld :
    leads (sramWrite ((at_ cfgE 0x100 0x0 [0x900D] [(26, 0xFF), (27, 0xFF)]).setRamp .X 0x1) 0x1FFFF 0x5A)
      (fun t => t.reg 0 == 0x5A && t.reg 26 == 0x0 && t.reg 27 == 0x0 && t.ramp .X == 0x2 && t.pc == 0x101) = true := by decide +kernel

theorem test_VW_2_ld :
    leads (sramWrite ((at_ cfgE 0x100 0x0 [0x900E] [(26, 0x0), (27, 0x0)]).setRamp .X 0x2) 0x1FFFF 0x5B)
      (fun t => t.reg 0 == 0x5B && t.reg 26 == 0xFF && t.reg 27 == 0xFF && t.ramp .X == 0x1 && t.pc == 0x101) = true := by decide +kernel

theorem test_VW_5_ldd :
    leads (sramWrite ((at_ cfgE 0x100 0x0 [0xA048] [(28, 0xF0), (29, 0xFF)]).setRamp .Y 0x1) 0x20010 0x44)
      (fun t => t.reg 4 == 0x44 && t.pc == 0x101) = true := by decide +kernel

theorem test_VW_8_lds :
    leads (sramWrite ((at_ cfgE 0x100 0x0 [0x9020, 0x1234] []).setRampD 0x1) 0x11234 0x99)
      (fun t => t.reg 2 == 0x99 && t.pc == 0x102) = true := by decide +kernel

theorem test_VW_10_xch :
    leads (sramWrite ((at_ cfgE 0x100 0x0 [0x9304] [(30, 0x0), (31, 0x21), (16, 0xAA)]).setRamp .Z 0x1) 0x12100 0x55)
      (fun t => t.reg 16 == 0x55 && t.sram 0x12100 == some 0xAA && t.pc == 0x101) = true := by decide +kernel

theorem test_VS_1_ld :
    leads (sramWrite (at_ cfgS 0x100 0x0 [0x900D] [(26, 0xDF), (27, 0xAA)]) 0xDF 0x66)
      (fun t => t.reg 0 == 0x66 && t.reg 26 == 0xE0 && t.pc == 0x101) = true := by decide +kernel

theorem test_VS_3_st :
    leads (at_ cfgS 0x100 0x0 [0x922A] [(28, 0x61), (29, 0x12), (2, 0x22)])
      (fun t => t.sram 0x60 == some 0x22 && t.reg 28 == 0x60 && t.pc == 0x101) = true := by decide +kernel

theorem test_VR_1_spm :
    refuses (at_ cfgA 0x1F00 0x0 [0x95E8] []) .spmNotModelled = true := by decide +kernel

theorem test_VR_3_des :
    refuses (at_ cfgD 0x100 0x0 [0x940B] []) .desNotModelled = true := by decide +kernel

theorem test_VR_5_spm :
    stops (at_ cfgC 0x100 0x0 [0x95E8] []) (.unavailableInstruction .spm) = true := by decide +kernel

/-! ### Witnesses: states and operands that meet the hypotheses of each obligation -/

theorem leads_next {s : State} {p : State → Bool} (h : leads s p = true) : ∃ t, step s = .next t := by
  unfold leads at h
  split at h
  · exact ⟨_, ‹_›⟩
  · cases h

theorem readable_sram {s : State} {a : Nat} (h : classify s.cfg a = .sram a) (hv : s.sram a ≠ none) : Readable s a := by
  simpa [Readable, h] using hv

theorem readable_io {s : State} {a : Nat} {A : BitVec 6} (h : classify s.cfg a = .io A) : Readable s a := by
  simp [Readable, h]

theorem readable_flash {s : State} {a b : Nat} (h : classify s.cfg a = .flash b) (hb : b / 2 ≤ s.cfg.flashEnd) :
    Readable s a := by
  simpa [Readable, h] using hb

theorem not_readable_sram {s : State} {a : Nat} (h : classify s.cfg a = .sram a) (hv : s.sram a = none) :
    ¬ Readable s a := by
  simpa [Readable, h] using hv

theorem writable_sram {c : Config} {a : Nat} (h : classify c a = .sram a) : Writable c a := by simp [Writable, h]

theorem not_unmapped {s : State} {a : Nat} (h : classify s.cfg a = .unmapped) : ¬ Readable s a ∧ ¬ Writable s.cfg a := by
  simp [Readable, Writable, h]

theorem not_readable_flash {s : State} {a b : Nat} (h : classify s.cfg a = .flash b) (hb : s.cfg.flashEnd < b / 2) :
    ¬ Readable s a := by
  simpa [Readable, h] using hb

theorem not_writable_flash {c : Config} {a b : Nat} (h : classify c a = .flash b) : ¬ Writable c a := by simp [Writable, h]

theorem not_writable_unmapped {c : Config} {a : Nat} (h : classify c a = .unmapped) : ¬ Writable c a := by
  simp [Writable, h]

theorem below_three {p : Nat → Prop} (h0 : p 0) (h1 : p 1) (h2 : p 2) (j : Nat) (h : j < 3) : p j := by
  match j, h with
  | 0, _ => exact h0
  | 1, _ => exact h1
  | 2, _ => exact h2

/-- The premises of a round trip. -/
def trips (c : Config) (i : Instr) (t : Table) : Prop :=
  instrTable i = t ∧ i.wf = true ∧ available c i.canonical.form = true ∧ RegsExist c i

theorem witness_DecodeOfEncodeArithmetic :
    trips defaultConfig (.adiw 24 63) .arithmetic ∧ trips cfgC (.cbr 16 0) .arithmetic := by
  unfold trips RegsExist; decide +kernel

theorem witness_DecodeOfEncodeBranch : trips defaultConfig (.call 0x3FFFFF) .branch ∧ trips cfgC (.cpse 16 31) .branch := by
  unfold trips RegsExist; decide +kernel

theorem witness_DecodeOfEncodeTransfer :
    trips defaultConfig (.stdY 63 0) .transfer ∧ trips defaultConfig (.lddZ 31 0) .transfer ∧ trips cfgC (.lds16 16 0x7F) .transfer := by
  unfold trips RegsExist; decide +kernel

theorem witness_DecodeOfEncodeBitAndControl : trips cfgC (.rol 16) .bit ∧ trips defaultConfig .brk .control := by
  unfold trips RegsExist; decide +kernel

theorem witness_EncodeOfDecode : decode cfgC (wordBytes [0xA30F, 1]) = .ok (.lds16 16 0x3F, wordBytes [1]) := by
  decide +kernel

/-- A machine right after reset holds the erased word 0xFFFF at its pc, which is on the list of reserved words. -/
theorem witness_ReservedWordsAreTheListedOnes :
    let s := State.reset
    s.run = .running ∧ interruptTaken s = none ∧ s.pc.toNat ≤ s.cfg.flashEnd ∧ s.progWord s.pc.toNat &&& 0xF808 = 0xF808 := by
  decide +kernel

theorem witness_InstructionLengthFollowsFirstWord :
    decode cfgA (wordBytes [0x95FF, 0x0000]) = .ok (.call 0x3F0000, []) ∧ decode cfgA (wordBytes [0x9588]) = .ok (.sleep, []) := by
  decide +kernel

/-- A one-word instruction at FLASHEND, and a two-word one in the two last words. -/
theorem witness_DecodedInstructionRuns :
    let s := at_ { cfgA with flashEnd := 0xFFF } 0xFFF 0 [0x0F01] []
    let t := at_ { cfgA with flashEnd := 0xFFF } 0xFFE 0 [0x940E, 0x3000] []
    (s.run = .running ∧ interruptTaken s = none ∧ s.pc.toNat ≤ s.cfg.flashEnd ∧
      decode s.cfg (wordBytes [s.progWord 0xFFF]) = .ok (.add 16 17, [])) ∧
    (t.run = .running ∧ interruptTaken t = none ∧ t.pc.toNat ≤ t.cfg.flashEnd ∧
      decode t.cfg (wordBytes [t.progWord 0xFFE, t.progWord 0xFFF]) = .ok (.call 0x3000, [])) := by
  decide +kernel

theorem witness_EncodedInstructionRuns :
    let s := at_ { cfgA with flashEnd := 0xFFF } 0xFFE 0 [0x940E, 0x3000] []
    s.run = .running ∧ interruptTaken s = none ∧ trips s.cfg (.call 0x3000) .branch ∧
      s.pc.toNat + (encode (.call 0x3000)).length ≤ s.cfg.flashEnd + 1 ∧
      s.progWord s.pc.toNat = 0x940E ∧ s.progWord (s.pc.toNat + 1) = 0x3000 ∧ encode (.call 0x3000) = [0x940E, 0x3000] := by
  unfold trips RegsExist; decide +kernel

/-- SPM Z+ on AVRe is there only where the configuration says so (R290, Table 4-4). -/
theorem test_spm_z_plus_cores :
    decode cfgA (wordBytes [0x95F8]) = .error (.unavailable .spmInc) ∧
    decode { cfgA with spmIncClassic := true } (wordBytes [0x95F8]) = .ok (.spmInc, []) ∧
    decode cfgD (wordBytes [0x95F8]) = .ok (.spmInc, []) := by
  decide +kernel

/-- Each clause: above FLASHEND, reserved, unavailable, no second word, register below 16 on AVRrc. -/
theorem witness_FetchFaultsInOrder :
    let c := { cfgA with flashEnd := 0xFFF }
    ((at_ c 0x1000 0 [] []).pc.toNat = c.flashEnd + 1) ∧
    findForm .AVRe ((at_ c 0xFFF 0 [] []).progWord 0xFFF) = none ∧
    (findForm .AVRe 0x9304 = some .xch ∧ available c .xch = false) ∧
    (findForm .AVRe 0x940E = some .call ∧ available c .call = true ∧ Form.call.twoWords = true) ∧
    (findForm .AVRrc 0x0EF0 = some .add ∧ available cfgC .add = true ∧ (buildInstr .add 0x0EF0 0).regs = [15, 16]) := by
  decide +kernel

theorem witness_TwoByteArithmetic : (3 : Reg) ≠ 2 ∧ (1 : Reg) ≠ 2 := by decide

theorem witness_DesAppliesTheRound : State.reset.cfg.hasDesRound = true ∧ (State.resetWith cfgD).cfg.hasDesRound = false := by
  decide

/-- A published FIPS 46 vector: the plain text, key and cipher text of the widely printed worked example. -/
theorem test_fips46_vector :
    Fips46.crypt false 0x133457799BBCDFF1 0x0123456789ABCDEF = 0x85E813540F0AB405 ∧
    Fips46.crypt true 0x133457799BBCDFF1 0x85E813540F0AB405 = 0x0123456789ABCDEF := by decide +kernel

/-- D17: on AVRrc a taken skip is one word whatever stands there; elsewhere 0x940C is two words. -/
theorem test_skip_over_two_words :
    leads (at_ cfgC 0 0 [0x1300, 0x940C] []) (·.pc == 2) = true ∧
    leads (at_ cfgA 0 0 [0x1300, 0x940C] []) (·.pc == 3) = true := by decide +kernel

theorem witness_CompareThenBranch : ∃ t, exec (.cp 4 19) State.reset = .next t := ⟨_, rfl⟩

/-- Skips that are taken with the next word in range, and with it above FLASHEND; SREG stands at 0x1F, which SBIC and SBIS
reach. -/
theorem witness_SkipTarget :
    let c := { cfgA with flashEnd := 0xFFF, ioSreg := 0x1F }
    let s := at_ c 0xFFE 0x80 [0x1000] [(0, 1)]
    let t := at_ c 0xFFF 0x80 [0x1000] [(0, 1)]
    s.pc.toNat + 1 = s.cfg.flashEnd ∧ t.pc.toNat + 1 = t.cfg.flashEnd + 1 ∧
    (isTwoWord ((withWord s 0xFFF 0x940C).progWord 0xFFF) = true ∧ (withWord s 0xFFF 0x940C).cfg.core = .AVRe ∧
      isTwoWord ((withWord (State.resetWith cfgC) 1 0x940C).progWord 1) = true ∧ (State.resetWith cfgC).cfg.core = .AVRrc) ∧
    ∀ u ∈ [s, t], u.reg 0 = u.reg 0 ∧ (u.reg 0).getLsbD 7 = false ∧ (u.reg 0).getLsbD 0 = true ∧
      (ioByte u 0x1F).getLsbD 0 = false ∧ (ioByte u 0x1F).getLsbD 7 = true := by
  decide +kernel

/-- Three stack bytes down to the lowest address of SRAM. -/
theorem witness_CallEffect :
    let s := State.reset.setSp 0x2002
    retBytes s.cfg = 3 ∧ ∀ j < 3, Writable s.cfg (pushSlot s j) := by
  refine ⟨by decide, below_three ?_ ?_ ?_⟩ <;> exact writable_sram (by decide +kernel)

/-- Three stack bytes up to the highest address of SRAM. -/
def threeOnStack : State := sramWrite (sramWrite (sramWrite (State.reset.setSp 0x3FFC) 0x3FFD 0xC1) 0x3FFE 0x23) 0x3FFF 0x46

theorem witness_ReturnEffect : retBytes threeOnStack.cfg = 3 ∧ ∀ j < 3, Readable threeOnStack (popSlot threeOnStack j) := by
  refine ⟨by decide, below_three ?_ ?_ ?_⟩ <;> exact readable_sram (by decide +kernel) (by decide +kernel)

theorem witness_InterruptReturnEffect :
    retBytes threeOnStack.cfg = 3 ∧ ∀ j < 3, Readable threeOnStack (popSlot threeOnStack j) := witness_ReturnEffect

theorem witness_CallThenReturn :
    let s := State.reset.setSp 0x2002
    s.sp.toNat < 2 ^ s.cfg.spBits.width ∧ retBytes s.cfg = 3 ∧ ∀ j < 3, classify s.cfg (pushSlot s j) = .sram (pushSlot s j) := by
  refine ⟨by decide, by decide, below_three ?_ ?_ ?_⟩ <;> decide +kernel

/-- Every kind of address that can be read: SRAM, a device, a flash mapping up to FLASHEND. -/
theorem witness_PlainLoadResult :
    let s := sramWrite (State.resetWith cfgC) 0x5F 1
    Readable s 0x5F ∧ Readable s 0x00 ∧ Readable s 0x43FF := by
  exact ⟨readable_sram (by decide +kernel) (by decide +kernel), readable_io (A := 0) (by decide +kernel),
    readable_flash (b := 0x3FF) (by decide +kernel) (by decide +kernel)⟩

/-- One WIDE pointer at a carry into RAMPX, the byte before it and the byte at it written. -/
def wideX : State :=
  sramWrite (sramWrite (((State.resetWith cfgE).setRamp .X 1)) 0x010000 7) 0x00FFFF 8

theorem witness_MovingLoadResult :
    (0 : Reg) ≠ ptrLow .X ∧ (0 : Reg) ≠ ptrHigh .X ∧ Readable wideX (ptrGet .X wideX).toNat ∧
      Readable wideX (ptrAdd .X (-1) wideX).toNat := by
  refine ⟨by decide, by decide, ?_, ?_⟩ <;> exact readable_sram (by decide +kernel) (by decide +kernel)

theorem witness_PlainStoreResult : Writable cfgC 0x40 ∧ Writable cfgC 0x5F ∧ Writable cfgC 0x3F := by
  refine ⟨writable_sram (by decide +kernel), writable_sram (by decide +kernel), ?_⟩
  have h : classify cfgC 0x3F = .io 0x3F := by decide +kernel
  simp [Writable, h]

theorem witness_MovingStoreResult :
    (0 : Reg) ≠ ptrLow .X ∧ (0 : Reg) ≠ ptrHigh .X ∧ Writable wideX.cfg (ptrGet .X wideX).toNat ∧
      Writable wideX.cfg (ptrAdd .X (-1) wideX).toNat := by
  refine ⟨by decide, by decide, ?_, ?_⟩ <;> exact writable_sram (by decide +kernel)

/-- The three modes, and the override of `PtrMode(Z)`. -/
theorem witness_PointerModes :
    cfgS.dataClass = .small ∧ (cfgA.dataClass ≠ .small ∧ hasRamp cfgA .X = false) ∧
    (cfgE.dataClass ≠ .small ∧ hasRamp cfgE .Z = true ∧ ¬ (Ptr.Z = .Z ∧ cfgE.zPointerNormal = true)) ∧
    (Ptr.Z = .Z ∧ { cfgB with zPointerNormal := true }.zPointerNormal = true) := by
  decide

theorem witness_ShortDirectAddressRange :
    cfgC.lds16Alt = false ∧ (addr16 cfgC 0x10).toNat = 0x40 ∧ (addr16 cfgC 0x6F).toNat = 0xBF := by decide

/-- The last byte of program memory, and the first above it, for LPM and for ELPM. -/
theorem witness_ProgramByteLoadResult :
    let s := ((State.resetWith { cfgB with flashEnd := 0x3FFF }).setReg 31 0x7F).setReg 30 0xFF
    let t := (State.resetWith { cfgB with flashEnd := 0x3FFF }).setReg 31 0x80
    let u := ((State.resetWith cfgB).setRamp .Z 0x7F)
    ((s.reg 31).toNat * 256 + (s.reg 30).toNat) / 2 = s.cfg.flashEnd ∧
    ((t.reg 31).toNat * 256 + (t.reg 30).toNat) / 2 = t.cfg.flashEnd + 1 ∧
    (u.cfg.hasRampZ = true ∧ (u.rampZ.toNat * 65536 + 0) / 2 ≤ u.cfg.flashEnd) ∧
    u.cfg.flashEnd < ((u.setRamp .Z 0x80).rampZ.toNat * 65536 + 0) / 2 ∧ (0 : Reg) ≠ 30 ∧ (0 : Reg) ≠ 31 := by
  decide +kernel

theorem witness_ProgramStoreEffect :
    State.reset.cfg.hasSpmEffect = true ∧ (State.resetWith cfgA).cfg.hasSpmEffect = false := by decide

theorem witness_DataSpaceReachesIo :
    let s := (State.resetWith cfgA).setReg 26 0x5F
    classify s.cfg (ptrGet .X s).toNat = .io 0x3F := by decide +kernel

theorem witness_PushPopEffect :
    Writable State.reset.cfg (State.reset.setSp 0x2000).sp.toNat ∧ Readable threeOnStack (popSlot threeOnStack 0) :=
  ⟨writable_sram (by decide +kernel), witness_ReturnEffect.2 0 (by decide)⟩

/-- The byte at Z written, and Z outside internal SRAM. -/
theorem witness_ReadModifyWriteResult :
    let s := sramWrite ((State.resetWith cfgD).setReg 31 0x20) 0x2000 0xF1
    let t := (State.resetWith cfgD).setReg 30 0x40
    Readable s (ptrGet .Z s).toNat ∧ Writable s.cfg (ptrGet .Z s).toNat ∧
    (classify s.cfg (ptrGet .Z s).toNat = .sram (ptrGet .Z s).toNat ∧ s.sram (ptrGet .Z s).toNat = some 0xF1) ∧
    classify t.cfg (ptrGet .Z t).toNat ≠ .sram (ptrGet .Z t).toNat := by
  refine ⟨readable_sram (by decide +kernel) (by decide +kernel), writable_sram (by decide +kernel), by decide +kernel, ?_⟩
  decide +kernel

theorem witness_IoBitWriteResult :
    ({ cfgA with devBitOps := true }.devBitOps = true ∧ ioTarget { cfgA with devBitOps := true } 0x1F = .device) ∧
    cfgA.devBitOps = false := by decide +kernel

theorem witness_ControlResult :
    let s := { State.reset with jtagenProgrammed := true, ocdenProgrammed := true }
    (s.lockBitSet = false ∧ s.jtagenProgrammed = true ∧ s.ocdenProgrammed = true) ∧
    ¬ (State.reset.lockBitSet = false ∧ State.reset.jtagenProgrammed = true ∧ State.reset.ocdenProgrammed = true) ∧
    (at_ cfgA 0 0 [] []).sleepEnabled = true ∧ State.reset.sleepEnabled = false := by decide

/-- The classes of address that give or take no byte: unmapped, SRAM that nothing has written, a flash mapping above
FLASHEND, and for stores every flash mapping; each clause at one of them. -/
theorem witness_DataFaults :
    let c := { cfgC with flashEnd := 0x0F }
    let s := (State.resetWith c).setReg 26 0x60
    let x := (State.resetWith c).setReg 31 0x40
    let l := State.resetWith cfgE
    let p := sramWrite ((State.resetWith cfgA).setSp 0xFFFD) 0xFFFE 1
    let q := (State.resetWith { cfgA with ramEnd := 0x45F, dataMap := ⟨0x461, 0x461, .sram, 0⟩ :: classicMap 0x45F }).setSp 0x461
    (¬ Readable s (ptrGet .X s).toNat ∧ ¬ Writable s.cfg (ptrGet .X s).toNat) ∧
    ¬ Readable s (addr16 s.cfg 0x10).toNat ∧
    (¬ Readable s 0x4020 ∧ Readable s 0x401F ∧ ¬ Writable s.cfg 0x401F) ∧
    ((0 : Reg) ≠ ptrLow .X ∧ (0 : Reg) ≠ ptrHigh .X ∧ ¬ Readable s (ptrAdd .X (-1) s).toNat ∧
      ¬ Writable s.cfg (ptrAdd .X (-1) (s.setReg 27 0x40)).toNat) ∧
    (Readable x (ptrGet .Z x).toNat ∧ ¬ Writable x.cfg (ptrGet .Z x).toNat) ∧
    (classify l.cfg (ptrGet .Z l).toNat = .sram (ptrGet .Z l).toNat ∧ l.sram (ptrGet .Z l).toNat = none) ∧
    (¬ Readable (s.setSp 0x5F) (popSlot (s.setSp 0x5F) 0) ∧
      Readable p (popSlot p 0) ∧ ¬ Readable p (popSlot p 1) ∧ 1 < retBytes p.cfg) ∧
    ¬ Writable s.cfg (pushSlot (s.setSp 0x60) 0) ∧
      Writable q.cfg (pushSlot q 0) ∧ ¬ Writable q.cfg (pushSlot q 1) ∧ 1 < retBytes q.cfg := by
  refine ⟨⟨(not_unmapped (by decide +kernel)).1, (not_unmapped (by decide +kernel)).2⟩,
    not_readable_sram (by decide +kernel) (by decide +kernel),
    ⟨not_readable_flash (b := 0x20) (by decide +kernel) (by decide +kernel),
      readable_flash (b := 0x1F) (by decide +kernel) (by decide +kernel), not_writable_flash (b := 0x1F) (by decide +kernel)⟩,
    ⟨by decide, by decide, not_readable_sram (by decide +kernel) (by decide +kernel),
      not_writable_flash (b := 0x5F) (by decide +kernel)⟩,
    ⟨readable_flash (b := 0) (by decide +kernel) (by decide +kernel), not_writable_flash (b := 0) (by decide +kernel)⟩,
    ⟨by decide +kernel, by decide +kernel⟩,
    ⟨(not_unmapped (by decide +kernel)).1, readable_sram (by decide +kernel) (by decide +kernel),
      not_readable_sram (by decide +kernel) (by decide +kernel), by decide⟩,
    not_writable_unmapped (by decide +kernel), writable_sram (by decide +kernel), not_writable_unmapped (by decide +kernel),
    by decide⟩

/-- A machine with I set and sources 3 and 1 requesting. -/
def requesting : State := (((State.resetWith cfgA).setSreg 0x80).setIrqPending [3, 1, 0, 500])

theorem witness_InterruptCheck :
    requesting.flag .I = true ∧ requesting.irqInhibit = false ∧
      (1 ∈ requesting.irqPending ∧ 1 < requesting.cfg.numVectors) ∧ interruptTaken requesting = some 1 := by decide +kernel

/-- An entry that completes, with a vector of the table and with one that is not in it; one whose first stack byte cannot
be stored, and one whose second cannot. -/
theorem witness_InterruptEntryEffect :
    let s := requesting.setSp 0x61
    let v := { s with cfg := { s.cfg with vectorTable := [(1, 0x1234)] } }
    let c := { cfgA with ramEnd := 0x45F, dataMap := ⟨0x461, 0x461, .sram, 0⟩ :: classicMap 0x45F }
    let t := (at_ c 0 0x80 [] []).setIrqPending [1]
    (∀ x ∈ [s, v], x.run ≠ .stopped ∧ interruptTaken x = some 1 ∧ retBytes x.cfg = 2 ∧
      classify x.cfg (pushSlot x 0) = .sram 0x61 ∧ classify x.cfg (pushSlot x 1) = .sram 0x60) ∧
    (s.cfg.vectorTable.lookup 1 = none ∧ v.cfg.vectorTable.lookup 1 = some 0x1234) ∧
    (∀ x ∈ [t.setSp 0x460, t.setSp 0x461], x.run ≠ .stopped ∧ interruptTaken x = some 1) ∧
    (¬ Writable (t.setSp 0x460).cfg (pushSlot (t.setSp 0x460) 0)) ∧
    (Writable (t.setSp 0x461).cfg (pushSlot (t.setSp 0x461) 0) ∧ ¬ Writable (t.setSp 0x461).cfg (pushSlot (t.setSp 0x461) 1)) :=
  ⟨by decide +kernel, by decide +kernel, by decide +kernel, not_writable_unmapped (by decide +kernel),
    writable_sram (by decide +kernel), not_writable_unmapped (by decide +kernel)⟩

theorem witness_SleepingAndStopped :
    let s := requesting.setRun .sleeping
    (s.run = .sleeping ∧ (s.setSreg 0).flag .I = false ∧ (s.setInhibit true).irqInhibit = true ∧
      ∀ n ∈ (s.setIrqPending [0, 128]).irqPending, n = 0 ∨ s.cfg.numVectors ≤ n) ∧
    (requesting.setRun .stopped).run = .stopped := by decide

/-- SEI, CLI, RETI, an OUT to SREG that raises I, and a NOP, each one step of a running machine. -/
theorem witness_InterruptDelay :
    ([(at_ cfgA 0 0 [0x9478] [], .bset 7), (at_ cfgA 0 0x80 [0x94F8] [], .bclr 7),
      (at_ cfgA 0 0 [0xBF0F] [(16, 0xFF)], .outIo 0x3F 16), (at_ cfgA 0 0x80 [0x0000] [], .nop),
      (sramWrite (sramWrite ((at_ cfgA 0 0 [0x9518] []).setSp 0x100) 0x101 0) 0x102 0, .reti)] : List (State × Instr)).all
      (fun e => decide (e.1.run = .running ∧ interruptTaken e.1 = none ∧ fetch e.1 = .ok e.2) &&
        leads e.1 fun _ => true) = true := by decide +kernel

theorem witness_FlagsWrittenOnlyAsListed :
    (∃ t, exec (.inc 16) State.reset = .next t) ∧ storesTo (.inc 16) State.reset .sreg = false ∧ Flag.C ∉ instrFlags (.inc 16) :=
  ⟨⟨_, rfl⟩, by decide, by decide⟩

theorem witness_SpAndPcChangedOnlyAsListed :
    (∃ t, exec (.ldi 16 1) State.reset = .next t) ∧ usesSp (.ldi 16 1) = false ∧
      storesTo (.ldi 16 1) State.reset .spl = false ∧ storesTo (.ldi 16 1) State.reset .sph = false ∧
      movesPc (.ldi 16 1) = false :=
  ⟨⟨_, rfl⟩, by decide, by decide, by decide, by decide⟩

/-- A store reaches SREG, SPL and SPH by its data address, and by no other. -/
theorem test_stores_to_sreg :
    let s := (State.resetWith cfgA).setReg 26 0x5F
    storesTo (.stX 0) s .sreg = true ∧ storesTo (.stX 0) (s.setReg 26 0x60) .sreg = false ∧
    storesTo (.push 0) (s.setSp 0x5D) .spl = true ∧ storesTo (.rcall 0) (s.setSp 0x5F) .sph = true ∧
    storesTo (.outIo 0x3F 0) s .sreg = true ∧ storesTo (.sbi 0x1F 0) s .sreg = false := by decide +kernel

/-- A step that runs no SPM; and an SPM at the pc of a machine that takes an interrupt, and of one that sleeps. -/
theorem witness_ProgramMemoryChangedOnlyBySpm :
    let s := at_ cfgA 0 0 [0x0000] []
    let t := ((at_ State.reset.cfg 0 0x80 [0x95E8] []).setSp 0x3FFF).setIrqPending [1]
    let u := (at_ State.reset.cfg 0 0 [0x95E8] []).setRun .sleeping
    ((∃ v, step s = .next v) ∧ fetch s = .ok .nop) ∧
    ((∃ v, step t = .next v) ∧ interruptTaken t = some 1 ∧ fetch t = .ok .spm) ∧
    ((∃ v, step u = .next v) ∧ u.run = .sleeping ∧ fetch u = .ok .spm) :=
  ⟨⟨leads_next (p := fun _ => true) (by decide +kernel), by decide +kernel⟩,
    ⟨leads_next (p := fun _ => true) (by decide +kernel), by decide +kernel, by decide +kernel⟩,
    leads_next (p := fun _ => true) (by decide +kernel), by decide +kernel, by decide +kernel⟩

theorem witness_EveryStepKeepsInvariant :
    let s := (State.reset.withFetchWord 16 0x9588).setSleepEnabled true
    s.Inv ∧ ∃ t, step s = .next t := by
  refine ⟨⟨by decide +kernel, by decide, by decide +kernel, ?_, ?_, by decide, by decide⟩,
    leads_next (p := fun _ => true) (by decide +kernel)⟩
  · intro e he
    have : e ∈ ([] : Memory) := he
    cases this
  · decide +kernel

end Sys2Proof.Tests
end

section
/-! SUPPORT. The aliases against the instructions they stand for (spec/30_encoding.md R115): the same bits, and the same
outcome in every state. The meanings are compared family by family, each by its own rule. -/

namespace Sys2Proof.Machine

/-! ### Encodings -/

/-- LDD and STD with displacement 0 have the bits of LD and ST through Y or Z; in every other row the encoder writes the
bits of the canonical instruction. -/
theorem encode_canonical (i : Instr) : encode i = encode i.canonical := by
  cases i with
  | lddY d q | lddZ d q | stdY q d | stdZ q d =>
    by_cases hq : q = 0
    · subst hq
      rfl
    · rw [Instr.canonical, if_neg hq]
  | _ => rfl

/-! ### Writes of what stands there already -/

theorem State.setReg_reg_self (s : State) (r : Reg) : s.setReg r (s.reg r) = s := by
  simp [State.setReg, State.reg, Vector.get_eq_getElem]

theorem State.setSreg_sreg_self (s : State) : s.setSreg s.sreg = s := rfl

/-! ### TST, CLR and SER -/

theorem execTst_eq_execAnd (d : Reg) (s : State) : execTst d s = execAnd d d s := by
  have hreg (v : Byte) : (s.setSreg v).setReg d (s.reg d) = s.setSreg v := State.setReg_reg_self (s.setSreg v) d
  simp only [execTst, execAnd, BitVec.and_self, writeFlags, writeBack, hreg]

/-- CLR writes the flags of the result 0. -/
theorem clrSreg_eq_logicSreg (sreg : Byte) : clrSreg sreg = logicSreg sreg 0 := rfl

theorem execClr_eq_execEor (d : Reg) (s : State) : execClr d s = execEor d d s := by
  simp only [execClr, execEor, BitVec.xor_self, clrSreg_eq_logicSreg]
  rfl

theorem execSer_eq_execLdi (d : Reg) (s : State) : execSer d s = execLdi d 0xFF s := by
  rw [execSer, writeBack, State.setSreg_sreg_self, execLdi]

/-! ### LSL and ROL: a sum of a byte and itself is a shift -/

/-- Doubling shifts left by one and lets the carry in at bit 0. -/
theorem addResult_self (a : Byte) (c : Bool) : addResult a a c = a.extractLsb' 0 7 ++ BitVec.ofBool c := by
  apply BitVec.eq_of_toNat_eq
  have happ : (a.extractLsb' 0 7 ++ BitVec.ofBool c : Byte).toNat =
      (a.extractLsb' 0 7).toNat * 2 ^ 1 + (BitVec.ofBool c).toNat := append_toNat _ _
  have hc := c.toNat_lt
  rw [happ, addResult]
  simp only [BitVec.toNat_ofNat, BitVec.extractLsb'_toNat, Nat.shiftRight_zero, BitVec.toNat_ofBool]
  omega

theorem addResult_self_false (a : Byte) : addResult a a false = a <<< 1 := by
  apply BitVec.eq_of_toNat_eq
  simp only [addResult, Bool.toNat_false, BitVec.toNat_ofNat, BitVec.toNat_shiftLeft, Nat.shiftLeft_eq]
  omega

/-- The half carry of a doubled byte is its bit 3. -/
theorem halfCarry_double (a : Byte) (c : Bool) :
    decide (16 ≤ a.toNat % 16 + a.toNat % 16 + c.toNat) = a.getLsbD 3 := by
  have hc := c.toNat_lt
  rw [BitVec.getLsbD, Nat.testBit_eq_decide_div_mod_eq]
  exact decide_eq_decide.mpr (by omega)

/-- The carry of a doubled byte is its bit 7. -/
theorem carry_double (a : Byte) (c : Bool) : decide (256 ≤ a.toNat + a.toNat + c.toNat) = a.msb := by
  have hc := c.toNat_lt
  rw [BitVec.msb_eq_decide]
  exact decide_eq_decide.mpr (by omega)

/-- The flags of a doubling are those of the left shift to the same result. -/
theorem addSreg_self (sreg a : Byte) (c : Bool) : addSreg sreg a a c = shiftLeftSreg sreg a (addResult a a c) := by
  simp only [addSreg, shiftLeftSreg, halfCarry_double, carry_double, beq_self_eq_true, Bool.true_and, Bool.bne_eq_xor]

theorem execLsl_eq_execAdd (d : Reg) (s : State) : execLsl d s = execAdd d d s := by
  simp only [execLsl, execAdd, shiftBack_eq, addSreg_self, addResult_self_false]

theorem execRol_eq_execAdc (d : Reg) (s : State) : execRol d s = execAdc d d s := by
  simp only [execRol, execAdc, shiftBack_eq, addSreg_self, addResult_self]

/-! ### The branches and the writes of one flag -/

/-- The number of a flag's bit, as BRBS, BRBC, BSET and BCLR take it (R25, R111). -/
def Flag.index (f : Flag) : Fin 8 := ⟨f.bit, by cases f <;> decide⟩

theorem execBrbs_flag (f : Flag) (k : BitVec 7) (s : State) :
    execBrbs f.index k s = .next (s.branch (s.flag f) k.toInt) := rfl

theorem execBrbc_flag (f : Flag) (k : BitVec 7) (s : State) :
    execBrbc f.index k s = .next (s.branch (!s.flag f) k.toInt) := rfl

/-- Only BSET of I delays interrupts (R42). -/
theorem execBset_flag (f : Flag) (s : State) (hf : f ≠ .I) : execBset f.index s = .next (putFlagNext f true s) := by
  have hi : f.index ≠ 7 := by
    revert hf
    cases f <;> decide
  simp only [execBset, hi, if_false]
  rfl

theorem execSei_eq_execBset (s : State) : execSei s = execBset 7 s := rfl

theorem execBclr_flag (f : Flag) (s : State) : execBclr f.index s = .next (putFlagNext f false s) := rfl

/-! ### LDD and STD with displacement 0 -/

/-- A value that was extended is got back from its low bits. -/
theorem extract_setWidth {m n : Nat} (h : m ≤ n) (x : BitVec m) : (x.setWidth n).extractLsb' 0 m = x := by
  apply BitVec.eq_of_toNat_eq
  have hx : x.toNat < 2 ^ n := x.isLt.trans_le (Nat.pow_le_pow_right (by decide) h)
  simp only [BitVec.extractLsb'_toNat, BitVec.toNat_setWidth, Nat.shiftRight_zero, Nat.mod_eq_of_lt hx,
    Nat.mod_eq_of_lt x.isLt]

/-- A pointer's value is within the pointer's width (R256). -/
theorem ptrClip_ptrGet (p : Ptr) (s : State) : ptrClip (ptrMode s.cfg p) (ptrGet p s) = ptrGet p s := by
  unfold ptrGet
  cases ptrMode s.cfg p with
  | small | normal => exact congrArg (BitVec.setWidth 24) (extract_setWidth (by decide) _)
  | wide => rfl

theorem ptrAdd_zero (p : Ptr) (s : State) : ptrAdd p 0 s = ptrGet p s := by
  have hsum : ptrGet p s + 0 = ptrGet p s := BitVec.add_zero _
  rw [ptrAdd, ptrOffset, hsum, ptrClip_ptrGet]

theorem loadDisp_zero (p : Ptr) (d : Reg) (s : State) : loadDisp p d 0 s = loadPtr p d s :=
  congrArg (fun a => loadAt d a s) (ptrAdd_zero p s)

theorem storeDisp_zero (p : Ptr) (r : Reg) (s : State) : storeDisp p 0 r s = storePtr p r s :=
  congrArg (fun a : Addr24 => memWrite a.toNat (s.reg r) s) (ptrAdd_zero p s)

/-! ### The statement -/

/-- Running an instruction is running its canonical one. What is left to `rfl` are SBR and CBR, whose rules are those of
ORI and ANDI written again, and the instructions that are their own canonical. -/
theorem exec_canonical (i : Instr) (s : State) : exec i s = exec i.canonical s := by
  cases i with
  | tst d => exact execTst_eq_execAnd d s
  | clr d => exact execClr_eq_execEor d s
  | ser d => exact execSer_eq_execLdi d s
  | lsl d => exact execLsl_eq_execAdd d s
  | rol d => exact execRol_eq_execAdc d s
  | breq k | brcs k | brlo k | brmi k | brlt k | brhs k | brts k | brvs k | brie k => exact (execBrbs_flag _ k s).symm
  | brne k | brcc k | brsh k | brpl k | brge k | brhc k | brtc k | brvc k | brid k => exact (execBrbc_flag _ k s).symm
  | sec | sen | sez | ses | sev | set | seh => exact (execBset_flag _ s (by decide)).symm
  | sei => exact execSei_eq_execBset s
  | clc | cln | clz | cli | cls | clv | clt | clh => exact (execBclr_flag _ s).symm
  | lddY d q | lddZ d q =>
    by_cases hq : q = 0
    · subst hq
      exact congrArg transfer (loadDisp_zero _ d s)
    · rw [Instr.canonical, if_neg hq]
  | stdY q r | stdZ q r =>
    by_cases hq : q = 0
    · subst hq
      exact congrArg transfer (storeDisp_zero _ r s)
    · rw [Instr.canonical, if_neg hq]
  | _ => rfl

/-- Settles O12: the encodings agree row by row, and the rule of every row computes what that of its canonical
instruction does. -/
theorem aliasActsAsCanonical : Obligations.AliasActsAsCanonical :=
  fun i s => ⟨encode_canonical i, exec_canonical i s⟩

end Sys2Proof.Machine
end

section
/-! SUPPORT. The shared flag computations against the spec's formulas (spec/40_arithmetic_logic.md R141 to R143). The
model takes C and H from sums and differences of numbers. Both are a carry of the library's adder, of `a + b + cin` and
of `a + ¬b + ¬bin`, at bits 4 and 8; a carry is the majority of the two operand bits and the complemented result bit. -/

namespace Sys2Proof.Machine

/-! ### Carries and borrows, at every width -/

/-- The carry out of bit `i`, in the form in which the spec prints H and C (R141). -/
theorem carry_succ_eq_sumOfProducts {w i : Nat} (hi : i < w) (x y : BitVec w) (c : Bool) :
    BitVec.carry (i + 1) x y c =
      (x.getLsbD i && y.getLsbD i || y.getLsbD i && !(x + y + (BitVec.ofBool c).setWidth w).getLsbD i ||
        !(x + y + (BitVec.ofBool c).setWidth w).getLsbD i && x.getLsbD i) := by
  rw [BitVec.carry_succ, BitVec.getLsbD_add_add_bool hi]
  generalize x.getLsbD i = p, y.getLsbD i = q, BitVec.carry i x y c = k
  revert p q k
  decide

/-- The bit above the sum of two operands extended by one bit is the carry (R141's `sum9[8]`). -/
theorem getLsbD_extended_sum {n : Nat} (x y : BitVec n) (c : Bool) :
    (x.setWidth (n + 1) + y.setWidth (n + 1) + (BitVec.ofBool c).setWidth (n + 1)).getLsbD n =
      BitVec.carry n x y c := by
  rw [BitVec.getLsbD_add_add_bool n.lt_succ_self]
  simp [BitVec.carry]

/-- The carry into bit `i` is that of the low `i` bits. -/
theorem carry_extractLsb' {w : Nat} (i : Nat) (x y : BitVec w) (c : Bool) :
    BitVec.carry i (x.extractLsb' 0 i) (y.extractLsb' 0 i) c = BitVec.carry i x y c := by
  simp [BitVec.carry]

/-- A difference is a sum with the complement. -/
theorem sub_sub_ofBool {w : Nat} (x y : BitVec w) (c : Bool) :
    x - y - (BitVec.ofBool c).setWidth w = x + ~~~y + (BitVec.ofBool !c).setWidth w := by
  have hx : x - y = x + ~~~y + 1#w := by rw [BitVec.sub_eq_add_neg, BitVec.neg_eq_not_add, BitVec.add_assoc]
  rw [hx]
  simp only [← BitVec.ofNat_toNat, BitVec.toNat_ofBool]
  cases c with
  | false => exact BitVec.sub_zero _
  | true => exact (BitVec.add_sub_cancel _ _).trans (BitVec.add_zero _).symm

/-- A difference borrows where the sum with the complement does not carry. -/
theorem borrow_eq_not_carry {w i : Nat} (hi : i ≤ w) (x y : BitVec w) (c : Bool) :
    decide (x.toNat % 2 ^ i < y.toNat % 2 ^ i + c.toNat) = !BitVec.carry i x (~~~y) !c := by
  have hnot : (~~~y).toNat % 2 ^ i = 2 ^ i - 1 - y.toNat % 2 ^ i := by
    rw [← BitVec.toNat_setWidth, BitVec.setWidth_not hi, BitVec.toNat_not, BitVec.toNat_setWidth]
  have hy : y.toNat % 2 ^ i < 2 ^ i := Nat.mod_lt _ (Nat.two_pow_pos i)
  rw [BitVec.carry, hnot, ← decide_not]
  refine decide_eq_decide.mpr ?_
  cases c <;> simp only [Bool.toNat_false, Bool.toNat_true, Bool.not_false, Bool.not_true] <;> omega

/-- The borrow of bit `i`, in the form in which the spec prints H and C (R142). -/
theorem borrow_succ_eq_sumOfProducts {w i : Nat} (hi : i < w) (x y : BitVec w) (c : Bool) :
    decide (x.toNat % 2 ^ (i + 1) < y.toNat % 2 ^ (i + 1) + c.toNat) =
      (!x.getLsbD i && y.getLsbD i || y.getLsbD i && (x - y - (BitVec.ofBool c).setWidth w).getLsbD i ||
        (x - y - (BitVec.ofBool c).setWidth w).getLsbD i && !x.getLsbD i) := by
  have hy : (~~~y).getLsbD i = !y.getLsbD i := by simp [hi]
  rw [borrow_eq_not_carry hi, carry_succ_eq_sumOfProducts hi, sub_sub_ofBool, hy]
  generalize x.getLsbD i = p, y.getLsbD i = q, (x + ~~~y + (BitVec.ofBool !c).setWidth w).getLsbD i = k
  revert p q k
  decide

/-- Comparing extended operands compares the numbers: the subtrahend and its borrow-in do not wrap. -/
theorem extended_lt_iff {n : Nat} (x y : BitVec n) (c : Bool) :
    x.setWidth (n + 1) < y.setWidth (n + 1) + (BitVec.ofBool c).setWidth (n + 1) ↔ x.toNat < y.toNat + c.toNat := by
  have hx := x.isLt
  have hy := y.isLt
  have hc := c.toNat_lt
  have hpow : 2 ^ (n + 1) = 2 * 2 ^ n := Nat.pow_succ'
  simp only [BitVec.lt_def, BitVec.toNat_add, BitVec.toNat_setWidth, BitVec.toNat_ofBool]
  rw [Nat.mod_eq_of_lt (by omega : x.toNat < 2 ^ (n + 1)), Nat.mod_eq_of_lt (by omega : y.toNat < 2 ^ (n + 1)),
    Nat.mod_eq_of_lt (by omega : c.toNat < 2 ^ (n + 1)),
    Nat.mod_eq_of_lt (by omega : y.toNat + c.toNat < 2 ^ (n + 1))]

/-! ### Overflow and zero -/

/-- V of a sum: equal signs in, another sign out, as the spec prints it (R141). -/
theorem sumOverflow_eq_sumOfProducts (a b r : Bool) : (a == b && r != a) = (a && b && !r || !a && !b && r) := by
  revert a b r
  decide

/-- V of a difference: different signs in, the minuend's sign lost, as the spec prints it (R142). -/
theorem differenceOverflow_eq_sumOfProducts (a b r : Bool) : (a != b && r != a) = (a && !b && !r || !a && b && r) := by
  revert a b r
  decide

/-- Z as the product of the complemented bits (R141). -/
theorem beq_zero_eq_product (r : Byte) :
    (r == 0) = (!r.getLsbD 7 && !r.getLsbD 6 && !r.getLsbD 5 && !r.getLsbD 4 && !r.getLsbD 3 && !r.getLsbD 2 &&
      !r.getLsbD 1 && !r.getLsbD 0) := by
  rw [Bool.eq_iff_iff, beq_iff_eq, BitVec.eq_of_getLsbD_eq_iff]
  simp only [Nat.forall_lt_succ_right, Bool.and_eq_true, Bool.not_eq_true', BitVec.ofNat_eq_ofNat, BitVec.getLsbD_zero,
    Nat.not_lt_zero, false_imp_iff, implies_true]
  tauto

theorem byte_msb_eq_getLsbD (x : Byte) : x.msb = x.getLsbD 7 := x.msb_eq_getLsbD_last

/-! ### AddFlags (R141) -/

theorem addResult_eq_add (a b : Byte) (cin : Bool) : addResult a b cin = a + b + (BitVec.ofBool cin).setWidth 8 := by
  apply BitVec.eq_of_toNat_eq
  simp [addResult]

/-- The spec's sum is nine bits wide; the result is its low byte. -/
theorem addResult_eq_extract (a b : Byte) (cin : Bool) :
    addResult a b cin =
      (a.setWidth 9 + b.setWidth 9 + (BitVec.ofBool cin).setWidth 9 : BitVec 9).extractLsb' 0 8 := by
  apply BitVec.eq_of_toNat_eq
  simp [addResult]

/-- The flags of a sum, with C and H as the adder's carries. -/
theorem addSreg_eq_carries (sreg a b : Byte) (cin : Bool) :
    addSreg sreg a b cin =
      putHSVNZC sreg (BitVec.carry 4 a b cin)
        (a.getLsbD 7 == b.getLsbD 7 && (addResult a b cin).getLsbD 7 != a.getLsbD 7)
        ((addResult a b cin).getLsbD 7) (addResult a b cin == 0) (BitVec.carry 8 a b cin) := by
  simp only [addSreg, byte_msb_eq_getLsbD, BitVec.carry_width]
  rfl

/-- Settles O13: H and C are the adder's carries into bits 4 and 8, which the assignments read above the extended sums
and the Boolean forms read as majorities. -/
theorem addFlagsFollowTheirFormulas : Obligations.AddFlagsFollowTheirFormulas := by
  intro sreg a b cin
  have hnibble := getLsbD_extended_sum (a.extractLsb' 0 4) (b.extractLsb' 0 4) cin
  rw [carry_extractLsb'] at hnibble
  have hbits {i : Nat} (hi : i < 8) := carry_succ_eq_sumOfProducts hi a b cin
  simp only [← addResult_eq_add] at hbits
  simp only [addSreg_eq_carries, getFlag_putHSVNZC, true_and]
  exact ⟨addResult_eq_extract a b cin, (getLsbD_extended_sum a b cin).symm, hnibble.symm,
    hbits (by decide), sumOverflow_eq_sumOfProducts _ _ _, hbits (by decide), beq_zero_eq_product _⟩

/-! ### SubFlags (R142) -/

theorem subResult_eq_sub (a b : Byte) (bin : Bool) : subResult a b bin = a - b - (BitVec.ofBool bin).setWidth 8 := by
  apply BitVec.eq_of_toNat_eq
  have ha := a.isLt
  have hb := b.isLt
  have hbin := bin.toNat_lt
  simp only [subResult, BitVec.toNat_ofInt, BitVec.toNat_sub, BitVec.toNat_setWidth, BitVec.toNat_ofBool]
  omega

/-- The flags of a difference, with the signs as bits 7. -/
theorem subSreg_eq_bits (sreg a b : Byte) (bin keepZ : Bool) :
    subSreg sreg a b bin keepZ =
      putHSVNZC sreg (decide (a.toNat % 16 < b.toNat % 16 + bin.toNat))
        (a.getLsbD 7 != b.getLsbD 7 && (subResult a b bin).getLsbD 7 != a.getLsbD 7)
        ((subResult a b bin).getLsbD 7) (subResult a b bin == 0 && (!keepZ || getFlag sreg .Z))
        (decide (a.toNat < b.toNat + bin.toNat)) := by
  simp only [subSreg, byte_msb_eq_getLsbD]

/-- Settles O14: H and C are the borrows of the low nibbles and of the bytes, which the assignments read as comparisons
of extended operands and the Boolean forms as majorities. -/
theorem subFlagsFollowTheirFormulas : Obligations.SubFlagsFollowTheirFormulas := by
  intro sreg a b bin keepZ
  have hbyte := extended_lt_iff a b bin
  have hnibble := extended_lt_iff (a.extractLsb' 0 4) (b.extractLsb' 0 4) bin
  simp only [BitVec.extractLsb'_toNat, Nat.shiftRight_zero] at hnibble
  have hbits {i : Nat} (hi : i < 8) := borrow_succ_eq_sumOfProducts hi a b bin
  simp only [← subResult_eq_sub] at hbits
  have hborrow := hbits (show 7 < 8 by decide)
  rw [Nat.mod_eq_of_lt a.isLt, Nat.mod_eq_of_lt b.isLt] at hborrow
  have hzero (z : Bool) : (z && (!keepZ || getFlag sreg .Z)) = if keepZ then z && getFlag sreg .Z else z := by
    cases keepZ <;> simp
  simp only [subSreg_eq_bits, getFlag_putHSVNZC, true_and]
  exact ⟨subResult_eq_sub a b bin, decide_eq_decide.mpr hbyte.symm, decide_eq_decide.mpr hnibble.symm, hzero _,
    hbits (i := 3) (by decide), differenceOverflow_eq_sumOfProducts _ _ _, hborrow⟩

/-! ### LogicFlags (R143) -/

/-- Settles O15: the four flags written are read back, with S = N as V is clear; the four others are among those that
writing S, V, N and Z leaves. -/
theorem logicFlagsFollowTheirFormulas : Obligations.LogicFlagsFollowTheirFormulas := by
  intro sreg r
  simp only [logicSreg, getFlag_putSVNZ, byte_msb_eq_getLsbD, Bool.xor_false, true_and]
  intro f hf
  simp only [List.mem_cons, List.not_mem_nil, or_false] at hf
  rcases hf with rfl | rfl | rfl | rfl <;> rfl

end Sys2Proof.Machine
end

section
/-! SUPPORT. Opcode lines and the words that match them (spec/30_encoding.md R102, R104). What is known of a word is its
bits under a mask; that decides a row where it contradicts it or covers it, and so the row that a lookup finds. -/

namespace Sys2Proof

/-! ### Words known under a mask -/

theorem field_toNat (w : Word) (lo len : Nat) : (field w lo len).toNat = w.toNat / 2 ^ lo % 2 ^ len := by
  rw [field, BitVec.extractLsb'_toNat, Nat.shiftRight_eq_div_pow]

/-- What is known under two masks is known under their union. -/
theorem and_or_eq {w m₁ m₂ p₁ p₂ : Word} (h₁ : w &&& m₁ = p₁) (h₂ : w &&& m₂ = p₂) :
    w &&& (m₁ ||| m₂) = p₁ ||| p₂ := by
  rw [← h₁, ← h₂]
  exact BitVec.and_or_distrib_left

/-- A known field is knowledge under the mask of its bits. -/
theorem and_field_mask {w : Word} {lo len : Nat} {v : BitVec len} (h : field w lo len = v) :
    w &&& ((BitVec.allOnes len).setWidth 16 <<< lo) = v.setWidth 16 <<< lo := by
  subst h
  ext i hi
  by_cases h : i < lo
  · simp [h]
  · simp only [not_lt] at h
    simp [field, BitVec.getLsbD_eq_getElem, hi, Nat.add_sub_cancel' h, Bool.and_comm, Bool.and_assoc]

/-- A field inside the mask is known. -/
theorem field_of_and_eq {w m p : Word} {lo len : Nat} (h : w &&& m = p) (hm : field m lo len = BitVec.allOnes len) :
    field w lo len = field p lo len := by
  rw [← h, field, field, BitVec.extractLsb'_and, ← field, ← field, hm, BitVec.and_allOnes]

/-! ### Rows decided by known bits -/

/-- Whether the words with the bits `fp` under `fm` match a row: all of them, none of them, or some. -/
def Row.verdict (fm fp : Word) (r : Row) : Option Bool :=
  if r.mask &&& fm = r.mask then some (fp &&& r.mask == r.pattern)
  else if fp &&& r.mask = r.pattern &&& fm then none
  else some false

theorem Row.verdict_sound {fm fp w : Word} {r : Row} {b : Bool} (h : w &&& fm = fp) (hv : r.verdict fm fp = some b) :
    (w &&& r.mask == r.pattern) = b := by
  unfold Row.verdict at hv
  split at hv
  next hmask =>
    have hw : w &&& r.mask = fp &&& r.mask := by rw [← h, BitVec.and_assoc, BitVec.and_comm fm, hmask]
    rw [hw]
    exact Option.some.inj hv
  next =>
    split at hv
    · cases hv
    next hne =>
      cases hv
      refine beq_eq_false_iff_ne.2 fun he => hne ?_
      rw [← h, ← he, BitVec.and_assoc, BitVec.and_assoc, BitVec.and_comm fm]

/-- The first row that all words with the known bits match, where none of them matches a row before it. -/
def certainRow (fm fp : Word) : List Row → Option Row
  | [] => none
  | r :: rest =>
    match r.verdict fm fp with
    | some true => some r
    | some false => certainRow fm fp rest
    | none => none

theorem find?_of_certainRow {fm fp w : Word} (h : w &&& fm = fp) {rows : List Row} {r : Row}
    (hc : certainRow fm fp rows = some r) : (rows.find? fun row => w &&& row.mask == row.pattern) = some r := by
  induction rows with
  | nil => cases hc
  | cons row rest ih =>
    simp only [certainRow] at hc
    split at hc
    next hv =>
      cases hc
      rw [List.find?_cons, Row.verdict_sound h hv]
    next hv =>
      rw [List.find?_cons, Row.verdict_sound h hv]
      exact ih hc
    · cases hc

/-- Off the AVRrc rows of R108 a word decodes to the row that its known bits make certain. -/
theorem findForm_of_known {core : Core} {fm fp w : Word} {f : Form} (h : w &&& fm = fp)
    (hn : field fm 12 4 = BitVec.allOnes 4) (hrc : core = .AVRrc → field fp 12 4 ≠ 0b1010)
    (hc : (certainRow fm fp (rowsOf (field fp 12 4))).map Row.form = some f) : findForm core w = some f := by
  obtain ⟨r, hr, rfl⟩ := Option.map_eq_some_iff.1 hc
  rw [findForm, field_of_and_eq h hn, if_neg fun hx => hrc hx.1 hx.2, find?_of_certainRow h hr, Option.map_some]

/-- On AVRrc the words `1010 xxxx xxxx xxxx` are the 16-bit LDS and STS (R108). -/
theorem findForm_short {w : Word} (h : field w 12 4 = 0b1010) :
    findForm .AVRrc w = some (if w.getLsbD 11 then .sts16 else .lds16) := by
  rw [findForm, if_pos ⟨rfl, h⟩]

/-- What a word decodes to: one of the two forms of R108 on AVRrc, or the form of a row that it matches. -/
theorem findForm_some {core : Core} {w : Word} {f : Form} (h : findForm core w = some f) :
    (core = .AVRrc ∧ field w 12 4 = 0b1010 ∧ f = if w.getLsbD 11 then .sts16 else .lds16) ∨
    ∃ row ∈ rowsOf (field w 12 4), row.form = f ∧ w &&& row.mask = row.pattern := by
  unfold findForm at h
  split at h
  next hx => exact .inl ⟨hx.1, hx.2, (Option.some.inj h).symm⟩
  next =>
    obtain ⟨row, hrow, rfl⟩ := Option.map_eq_some_iff.1 h
    exact .inr ⟨row, List.mem_of_find?_eq_some hrow, rfl, by simpa using List.find?_some hrow⟩

end Sys2Proof
end

section
/-! SUPPORT. The formats of spec/30_encoding.md R102 as numbers: the word of each, what its opcode bits make known, its
fields read back (R110, R111), and the word put together again from its fields. -/

namespace Sys2Proof

/-! ### Words and fields as numbers -/

theorem append3_toNat {a b c : Nat} (x : BitVec a) (y : BitVec b) (z : BitVec c) :
    (x ++ y ++ z).toNat = (x.toNat * 2 ^ b + y.toNat) * 2 ^ c + z.toNat := by
  simp only [append_toNat]

theorem append4_toNat {a b c d : Nat} (x : BitVec a) (y : BitVec b) (z : BitVec c) (u : BitVec d) :
    (x ++ y ++ z ++ u).toNat = ((x.toNat * 2 ^ b + y.toNat) * 2 ^ c + z.toNat) * 2 ^ d + u.toNat := by
  simp only [append_toNat]

theorem append5_toNat {a b c d e : Nat} (x : BitVec a) (y : BitVec b) (z : BitVec c) (u : BitVec d) (v : BitVec e) :
    (x ++ y ++ z ++ u ++ v).toNat =
      (((x.toNat * 2 ^ b + y.toNat) * 2 ^ c + z.toNat) * 2 ^ d + u.toNat) * 2 ^ e + v.toNat := by
  simp only [append_toNat]

theorem append8_toNat {a b c d e f g h : Nat} (x : BitVec a) (y : BitVec b) (z : BitVec c) (u : BitVec d)
    (v : BitVec e) (x' : BitVec f) (y' : BitVec g) (z' : BitVec h) :
    (x ++ y ++ z ++ u ++ v ++ x' ++ y' ++ z').toNat =
      ((((((x.toNat * 2 ^ b + y.toNat) * 2 ^ c + z.toNat) * 2 ^ d + u.toNat) * 2 ^ e + v.toNat) * 2 ^ f +
        x'.toNat) * 2 ^ g + y'.toNat) * 2 ^ h + z'.toNat := by
  simp only [append_toNat]

@[simp] theorem bits5_toNat (r : Reg) : (bits5 r).toNat = r.val := by simp [bits5]

@[simp] theorem bits3_toNat (b : Fin 8) : (bits3 b).toNat = b.val := by simp [bits3]

@[simp] theorem bitsHigh_toNat (r : Reg) : (bitsHigh r).toNat = r.val - 16 := by
  simp [bitsHigh]
  omega

@[simp] theorem bitsMid_toNat (r : Reg) : (bitsMid r).toNat = (r.val - 16) % 8 := by simp [bitsMid]

@[simp] theorem bitsPair_toNat (r : Reg) : (bitsPair r).toNat = (r.val - 24) / 2 := by
  simp [bitsPair]
  omega

@[simp] theorem bitsEven_toNat (r : Reg) : (bitsEven r).toNat = r.val / 2 := by
  simp [bitsEven]
  omega

theorem fieldD_val (w : Word) : (fieldD w).val = w.toNat / 16 % 32 := field_toNat w 4 5

theorem fieldR_val (w : Word) : (fieldR w).val = w.toNat / 512 % 2 * 16 + w.toNat % 16 := by
  refine (append_toNat _ _).trans ?_
  simp [field_toNat]

theorem fieldK8_toNat (w : Word) : (fieldK8 w).toNat = w.toNat / 256 % 16 * 16 + w.toNat % 16 := by
  refine (append_toNat _ _).trans ?_
  simp [field_toNat]

theorem fieldK6_toNat (w : Word) : (fieldK6 w).toNat = w.toNat / 64 % 4 * 16 + w.toNat % 16 := by
  refine (append_toNat _ _).trans ?_
  simp [field_toNat]

theorem fieldA6_toNat (w : Word) : (fieldA6 w).toNat = w.toNat / 512 % 4 * 16 + w.toNat % 16 := by
  refine (append_toNat _ _).trans ?_
  simp [field_toNat]

theorem fieldK7_toNat (w : Word) : (fieldK7 w).toNat = w.toNat / 256 % 8 * 16 + w.toNat % 16 := by
  refine (append_toNat _ _).trans ?_
  simp [field_toNat]

theorem fieldQ_toNat (w : Word) :
    (fieldQ w).toNat = w.toNat / 8192 % 2 * 32 + w.toNat / 1024 % 4 * 8 + w.toNat % 8 := by
  refine (append3_toNat _ _ _).trans ?_
  simp [field_toNat]
  omega

theorem fieldK22_toNat (w w2 : Word) :
    (fieldK22 w w2).toNat = w.toNat / 16 % 32 * 131072 + w.toNat % 2 * 65536 + w2.toNat := by
  refine (append3_toNat _ _ _).trans ?_
  simp [field_toNat]
  omega

theorem regHigh_val (x : BitVec 4) : (regHigh x).val = 16 + x.toNat := rfl

theorem regMid_val (x : BitVec 3) : (regMid x).val = 16 + x.toNat := rfl

theorem regPair_val (x : BitVec 2) : (regPair x).val = 24 + 2 * x.toNat := rfl

theorem regEven_val (x : BitVec 4) : (regEven x).val = 2 * x.toNat := rfl

theorem bitOf_val (x : BitVec 3) : (bitOf x).val = x.toNat := rfl

/-! ### Format `RR5` -/

theorem encRR5_toNat (op : BitVec 6) (d r : Reg) :
    (encRR5 op d r).toNat = op.toNat * 1024 + r.val / 16 * 512 + d.val * 16 + r.val % 16 := by
  refine (append4_toNat _ _ _ _).trans ?_
  simp [Nat.shiftRight_eq_div_pow]
  omega

/-- The opcode bits of the format. -/
theorem encRR5_known (op : BitVec 6) (d r : Reg) : encRR5 op d r &&& 0xFC00 = op.setWidth 16 <<< 10 := by
  refine and_field_mask (lo := 10) (len := 6) (BitVec.eq_of_toNat_eq ?_)
  have hi : r.val / 16 < 2 := by omega
  have lo : r.val % 16 < 16 := by omega
  simp only [field_toNat, encRR5_toNat, Nat.reducePow]
  generalize r.val / 16 = x, r.val % 16 = y at hi lo
  omega

@[simp] theorem fieldD_encRR5 (op : BitVec 6) (d r : Reg) : fieldD (encRR5 op d r) = d := by
  apply Fin.ext
  rw [fieldD_val, encRR5_toNat]
  omega

@[simp] theorem fieldR_encRR5 (op : BitVec 6) (d r : Reg) : fieldR (encRR5 op d r) = r := by
  apply Fin.ext
  rw [fieldR_val, encRR5_toNat]
  omega

/-- A word of the format is its opcode and its fields. -/
theorem encRR5_fields {w p : Word} {op : BitVec 6} (h : w &&& 0xFC00 = p) (hp : field p 10 6 = op) :
    encRR5 op (fieldD w) (fieldR w) = w := by
  rw [← hp, ← field_of_and_eq h (by decide)]
  apply BitVec.eq_of_toNat_eq
  simp only [encRR5_toNat, field_toNat, fieldD_val, fieldR_val, Nat.reducePow]
  omega

/-! ### Format `RI8` -/

theorem encRI8_toNat (op : BitVec 4) (d : Reg) (K : Byte) :
    (encRI8 op d K).toNat = op.toNat * 4096 + K.toNat / 16 * 256 + (d.val - 16) * 16 + K.toNat % 16 := by
  refine (append4_toNat _ _ _ _).trans ?_
  simp [Nat.shiftRight_eq_div_pow]
  omega

theorem encRI8_known (op : BitVec 4) (d : Reg) (K : Byte) : encRI8 op d K &&& 0xF000 = op.setWidth 16 <<< 12 := by
  refine and_field_mask (lo := 12) (len := 4) (BitVec.eq_of_toNat_eq ?_)
  have hi : K.toNat / 16 < 16 := by omega
  have lo : K.toNat % 16 < 16 := by omega
  simp only [field_toNat, encRI8_toNat, Nat.reducePow]
  generalize K.toNat / 16 = x, K.toNat % 16 = y at hi lo
  omega

theorem highReg_iff {d : Reg} : highReg d = true ↔ 16 ≤ d.val := by simp [highReg]

@[simp] theorem regHigh_encRI8 (op : BitVec 4) {d : Reg} (K : Byte) (hd : highReg d = true) :
    regHigh (field (encRI8 op d K) 4 4) = d := by
  rw [highReg_iff] at hd
  apply Fin.ext
  rw [regHigh_val, field_toNat, encRI8_toNat]
  omega

@[simp] theorem fieldK8_encRI8 (op : BitVec 4) (d : Reg) (K : Byte) : fieldK8 (encRI8 op d K) = K := by
  apply BitVec.eq_of_toNat_eq
  rw [fieldK8_toNat, encRI8_toNat]
  omega

theorem encRI8_fields {w p : Word} {op : BitVec 4} (h : w &&& 0xF000 = p) (hp : field p 12 4 = op) :
    encRI8 op (regHigh (field w 4 4)) (fieldK8 w) = w := by
  rw [← hp, ← field_of_and_eq h (by decide)]
  apply BitVec.eq_of_toNat_eq
  simp only [encRI8_toNat, regHigh_val, field_toNat, fieldK8_toNat, Nat.reducePow]
  omega

/-! ### Formats `R1` and `LDST` -/

theorem encOneReg_toNat (op : BitVec 7) (d : Reg) (mode : BitVec 4) :
    (encOneReg op d mode).toNat = op.toNat * 512 + d.val * 16 + mode.toNat := by
  refine (append3_toNat _ _ _).trans ?_
  simp
  omega

theorem opcode_encOneReg (op : BitVec 7) (d : Reg) (mode : BitVec 4) : field (encOneReg op d mode) 9 7 = op := by
  apply BitVec.eq_of_toNat_eq
  simp only [field_toNat, encOneReg_toNat, Nat.reducePow]
  omega

theorem mode_encOneReg (op : BitVec 7) (d : Reg) (mode : BitVec 4) : field (encOneReg op d mode) 0 4 = mode := by
  apply BitVec.eq_of_toNat_eq
  simp only [field_toNat, encOneReg_toNat, Nat.reducePow]
  omega

theorem encOneReg_known (op : BitVec 7) (d : Reg) (mode : BitVec 4) :
    encOneReg op d mode &&& 0xFE0F = op.setWidth 16 <<< 9 ||| mode.setWidth 16 <<< 0 :=
  and_or_eq (and_field_mask (opcode_encOneReg op d mode)) (and_field_mask (mode_encOneReg op d mode))

@[simp] theorem fieldD_encOneReg (op : BitVec 7) (d : Reg) (mode : BitVec 4) : fieldD (encOneReg op d mode) = d := by
  apply Fin.ext
  rw [fieldD_val, encOneReg_toNat]
  omega

/-- A word is its opcode, register and mode bits. -/
theorem encOneReg_self (w : Word) : encOneReg (field w 9 7) (fieldD w) (field w 0 4) = w := by
  apply BitVec.eq_of_toNat_eq
  simp only [encOneReg_toNat, field_toNat, fieldD_val, Nat.reducePow]
  omega

theorem encOneReg_fields {w p : Word} {op : BitVec 7} {mode : BitVec 4} (h : w &&& 0xFE0F = p)
    (hp : field p 9 7 = op) (hm : field p 0 4 = mode) : encOneReg op (fieldD w) mode = w := by
  rw [← hp, ← hm, ← field_of_and_eq h (by decide), ← field_of_and_eq h (by decide), encOneReg_self]

/-! ### Format `IW` -/

theorem encIW_toNat (op : BitVec 8) (d : Reg) (K : BitVec 6) :
    (encIW op d K).toNat = op.toNat * 256 + K.toNat / 16 * 64 + (d.val - 24) / 2 * 16 + K.toNat % 16 := by
  refine (append4_toNat _ _ _ _).trans ?_
  simp [Nat.shiftRight_eq_div_pow]
  omega

theorem encIW_known (op : BitVec 8) (d : Reg) (K : BitVec 6) : encIW op d K &&& 0xFF00 = op.setWidth 16 <<< 8 := by
  refine and_field_mask (lo := 8) (len := 8) (BitVec.eq_of_toNat_eq ?_)
  have hi : K.toNat / 16 < 4 := by omega
  have lo : K.toNat % 16 < 16 := by omega
  have hd : (d.val - 24) / 2 < 4 := by omega
  simp only [field_toNat, encIW_toNat, Nat.reducePow]
  generalize K.toNat / 16 = x, K.toNat % 16 = y, (d.val - 24) / 2 = z at hi lo hd
  omega

theorem pairReg_iff {d : Reg} : pairReg d = true ↔ 24 ≤ d.val ∧ d.val % 2 = 0 := by simp [pairReg]

@[simp] theorem regPair_encIW (op : BitVec 8) {d : Reg} (K : BitVec 6) (hd : pairReg d = true) :
    regPair (field (encIW op d K) 4 2) = d := by
  rw [pairReg_iff] at hd
  apply Fin.ext
  rw [regPair_val, field_toNat, encIW_toNat]
  omega

@[simp] theorem fieldK6_encIW (op : BitVec 8) (d : Reg) (K : BitVec 6) : fieldK6 (encIW op d K) = K := by
  apply BitVec.eq_of_toNat_eq
  rw [fieldK6_toNat, encIW_toNat]
  omega

theorem encIW_fields {w p : Word} {op : BitVec 8} (h : w &&& 0xFF00 = p) (hp : field p 8 8 = op) :
    encIW op (regPair (field w 4 2)) (fieldK6 w) = w := by
  rw [← hp, ← field_of_and_eq h (by decide)]
  apply BitVec.eq_of_toNat_eq
  simp only [encIW_toNat, regPair_val, field_toNat, fieldK6_toNat, Nat.reducePow]
  omega

/-! ### Formats `BR` and `RJ` -/

theorem encBR_toNat (op : BitVec 6) (s : Fin 8) (k : BitVec 7) :
    (encBR op s k).toNat = op.toNat * 1024 + k.toNat * 8 + s.val := by
  refine (append3_toNat _ _ _).trans ?_
  simp
  omega

theorem encBR_known (op : BitVec 6) (s : Fin 8) (k : BitVec 7) : encBR op s k &&& 0xFC00 = op.setWidth 16 <<< 10 := by
  refine and_field_mask (lo := 10) (len := 6) (BitVec.eq_of_toNat_eq ?_)
  simp only [field_toNat, encBR_toNat, Nat.reducePow]
  omega

@[simp] theorem bitOf_encBR (op : BitVec 6) (s : Fin 8) (k : BitVec 7) : bitOf (field (encBR op s k) 0 3) = s := by
  apply Fin.ext
  rw [bitOf_val, field_toNat, encBR_toNat]
  omega

@[simp] theorem offset_encBR (op : BitVec 6) (s : Fin 8) (k : BitVec 7) : field (encBR op s k) 3 7 = k := by
  apply BitVec.eq_of_toNat_eq
  rw [field_toNat, encBR_toNat]
  omega

theorem encBR_fields {w p : Word} {op : BitVec 6} (h : w &&& 0xFC00 = p) (hp : field p 10 6 = op) :
    encBR op (bitOf (field w 0 3)) (field w 3 7) = w := by
  rw [← hp, ← field_of_and_eq h (by decide)]
  apply BitVec.eq_of_toNat_eq
  simp only [encBR_toNat, bitOf_val, field_toNat, Nat.reducePow]
  omega

theorem encRJ_toNat (op : BitVec 4) (k : BitVec 12) : (encRJ op k).toNat = op.toNat * 4096 + k.toNat :=
  append_toNat op k

theorem encRJ_known (op : BitVec 4) (k : BitVec 12) : encRJ op k &&& 0xF000 = op.setWidth 16 <<< 12 := by
  refine and_field_mask (lo := 12) (len := 4) (BitVec.eq_of_toNat_eq ?_)
  simp only [field_toNat, encRJ_toNat, Nat.reducePow]
  omega

@[simp] theorem offset_encRJ (op : BitVec 4) (k : BitVec 12) : field (encRJ op k) 0 12 = k := by
  apply BitVec.eq_of_toNat_eq
  rw [field_toNat, encRJ_toNat]
  omega

theorem encRJ_fields {w p : Word} {op : BitVec 4} (h : w &&& 0xF000 = p) (hp : field p 12 4 = op) :
    encRJ op (field w 0 12) = w := by
  rw [← hp, ← field_of_and_eq h (by decide)]
  apply BitVec.eq_of_toNat_eq
  simp only [encRJ_toNat, field_toNat, Nat.reducePow]
  omega

/-! ### Format `JC32` -/

theorem encJC32_toNat (op : BitVec 3) (k : BitVec 22) :
    (encJC32 op k).toNat = 0b1001010 * 512 + k.toNat / 131072 * 16 + op.toNat * 2 + k.toNat / 65536 % 2 := by
  refine (append4_toNat _ _ _ _).trans ?_
  simp [Nat.shiftRight_eq_div_pow]
  omega

theorem encJC32_known (op : BitVec 3) (k : BitVec 22) :
    encJC32 op k &&& 0xFE0E = (0b1001010#7).setWidth 16 <<< 9 ||| op.setWidth 16 <<< 1 := by
  have hi : k.toNat / 131072 < 32 := by omega
  have lo : k.toNat / 65536 % 2 < 2 := by omega
  refine and_or_eq (and_field_mask (lo := 9) (len := 7) (BitVec.eq_of_toNat_eq ?_))
    (and_field_mask (lo := 1) (len := 3) (BitVec.eq_of_toNat_eq ?_)) <;>
  · simp only [field_toNat, encJC32_toNat, Nat.reducePow, BitVec.toNat_ofNat]
    generalize k.toNat / 131072 = x, k.toNat / 65536 % 2 = y at hi lo
    omega

@[simp] theorem fieldK22_encJC32 (op : BitVec 3) (k : BitVec 22) :
    fieldK22 (encJC32 op k) (k.extractLsb' 0 16) = k := by
  apply BitVec.eq_of_toNat_eq
  rw [fieldK22_toNat, encJC32_toNat, BitVec.extractLsb'_toNat, Nat.shiftRight_zero]
  omega

theorem encJC32_fields {w p : Word} {op : BitVec 3} (w2 : Word) (h : w &&& 0xFE0E = p)
    (ht : field p 9 7 = 0b1001010) (hp : field p 1 3 = op) : encJC32 op (fieldK22 w w2) = w := by
  have ht' := congrArg BitVec.toNat ((field_of_and_eq h (by decide)).trans ht)
  rw [← hp, ← field_of_and_eq h (by decide)]
  apply BitVec.eq_of_toNat_eq
  simp only [encJC32_toNat, field_toNat, fieldK22_toNat, Nat.reducePow, BitVec.reduceToNat] at ht' ⊢
  omega

theorem low_fieldK22 (w w2 : Word) : (fieldK22 w w2).extractLsb' 0 16 = w2 := by
  apply BitVec.eq_of_toNat_eq
  simp only [BitVec.extractLsb'_toNat, Nat.shiftRight_zero, fieldK22_toNat, Nat.reducePow]
  omega

/-! ### Format `DS16` -/

theorem encDS16_toNat (op : BitVec 5) (d : Reg) (k : BitVec 7) :
    (encDS16 op d k).toNat = op.toNat * 2048 + k.toNat / 16 * 256 + (d.val - 16) * 16 + k.toNat % 16 := by
  refine (append4_toNat _ _ _ _).trans ?_
  simp [Nat.shiftRight_eq_div_pow]
  omega

theorem opcode_encDS16 (op : BitVec 5) (d : Reg) (k : BitVec 7) : field (encDS16 op d k) 11 5 = op := by
  apply BitVec.eq_of_toNat_eq
  have hi : k.toNat / 16 < 8 := by omega
  have lo : k.toNat % 16 < 16 := by omega
  simp only [field_toNat, encDS16_toNat, Nat.reducePow]
  generalize k.toNat / 16 = x, k.toNat % 16 = y at hi lo
  omega

@[simp] theorem regHigh_encDS16 (op : BitVec 5) {d : Reg} (k : BitVec 7) (hd : highReg d = true) :
    regHigh (field (encDS16 op d k) 4 4) = d := by
  rw [highReg_iff] at hd
  apply Fin.ext
  rw [regHigh_val, field_toNat, encDS16_toNat]
  omega

@[simp] theorem fieldK7_encDS16 (op : BitVec 5) (d : Reg) (k : BitVec 7) : fieldK7 (encDS16 op d k) = k := by
  apply BitVec.eq_of_toNat_eq
  rw [fieldK7_toNat, encDS16_toNat]
  omega

theorem encDS16_fields {w : Word} {op : BitVec 5} (h : field w 11 5 = op) :
    encDS16 op (regHigh (field w 4 4)) (fieldK7 w) = w := by
  rw [← h]
  apply BitVec.eq_of_toNat_eq
  simp only [encDS16_toNat, regHigh_val, field_toNat, fieldK7_toNat, Nat.reducePow]
  omega

/-! ### Format `DISP`: format `LDST` with the displacement in the opcode and mode bits -/

/-- Bits 15 to 9 of the format. -/
def dispOpcode (store : BitVec 1) (q : BitVec 6) : BitVec 7 :=
  0b10#2 ++ q.extractLsb' 5 1 ++ 0b0#1 ++ q.extractLsb' 3 2 ++ store

/-- Bits 3 to 0 of the format. -/
def dispMode (y : BitVec 1) (q : BitVec 6) : BitVec 4 := y ++ q.extractLsb' 0 3

theorem dispOpcode_toNat (store : BitVec 1) (q : BitVec 6) :
    (dispOpcode store q).toNat = 64 + q.toNat / 32 * 16 + q.toNat / 8 % 4 * 2 + store.toNat := by
  refine (append5_toNat _ _ _ _ _).trans ?_
  simp [Nat.shiftRight_eq_div_pow]
  omega

theorem dispMode_toNat (y : BitVec 1) (q : BitVec 6) : (dispMode y q).toNat = y.toNat * 8 + q.toNat % 8 := by
  refine (append_toNat _ _).trans ?_
  simp

theorem encDISP_eq (store y : BitVec 1) (d : Reg) (q : BitVec 6) :
    encDISP store y d q = encOneReg (dispOpcode store q) d (dispMode y q) := by
  apply BitVec.eq_of_toNat_eq
  rw [encOneReg_toNat, dispOpcode_toNat, dispMode_toNat]
  refine (append8_toNat _ _ _ _ _ _ _ _).trans ?_
  simp [Nat.shiftRight_eq_div_pow]
  omega

/-- All bits of the format but those of the register. -/
theorem encDISP_known (store y : BitVec 1) (d : Reg) (q : BitVec 6) :
    encDISP store y d q &&& 0xFE0F =
      (dispOpcode store q).setWidth 16 <<< 9 ||| (dispMode y q).setWidth 16 <<< 0 := by
  rw [encDISP_eq]
  exact encOneReg_known _ d _

@[simp] theorem fieldD_encDISP (store y : BitVec 1) (d : Reg) (q : BitVec 6) : fieldD (encDISP store y d q) = d := by
  rw [encDISP_eq, fieldD_encOneReg]

/-- The displacement, by the opcode bits and the mode bits that hold it. -/
theorem fieldQ_eq (w : Word) :
    (fieldQ w).toNat =
      (field w 9 7).toNat / 16 % 2 * 32 + (field w 9 7).toNat / 2 % 4 * 8 + (field w 0 4).toNat % 8 := by
  rw [fieldQ_toNat]
  simp only [field_toNat, Nat.reducePow]
  omega

@[simp] theorem fieldQ_encDISP (store y : BitVec 1) (d : Reg) (q : BitVec 6) : fieldQ (encDISP store y d q) = q := by
  have hop : field (encDISP store y d q) 9 7 = dispOpcode store q := by
    rw [encDISP_eq, opcode_encOneReg]
  have hmode : field (encDISP store y d q) 0 4 = dispMode y q := by
    rw [encDISP_eq, mode_encOneReg]
  apply BitVec.eq_of_toNat_eq
  rw [fieldQ_eq, hop, hmode, dispOpcode_toNat, dispMode_toNat]
  omega

theorem dispOpcode_fields {w : Word} (h14 : field w 14 2 = 0b10) (h12 : field w 12 1 = 0) :
    dispOpcode (field w 9 1) (fieldQ w) = field w 9 7 := by
  have h5 : (field w 9 7).toNat / 32 = 2 := by
    rw [show 2 = (field w 14 2).toNat by rw [h14]; rfl]
    simp only [field_toNat, Nat.reducePow]
    omega
  have h3 : (field w 9 7).toNat / 8 % 2 = 0 := by
    rw [show 0 = (field w 12 1).toNat by rw [h12]; rfl]
    simp only [field_toNat, Nat.reducePow]
    omega
  have h0 : (field w 9 1).toNat = (field w 9 7).toNat % 2 := by
    simp only [field_toNat, Nat.reducePow]
    omega
  apply BitVec.eq_of_toNat_eq
  rw [dispOpcode_toNat, h0, fieldQ_eq]
  omega

theorem dispMode_fields (w : Word) : dispMode (field w 3 1) (fieldQ w) = field w 0 4 := by
  have hq0 : (fieldQ w).toNat % 8 = w.toNat % 8 := by
    rw [fieldQ_toNat]
    omega
  apply BitVec.eq_of_toNat_eq
  rw [dispMode_toNat, hq0]
  simp only [field_toNat, Nat.reducePow]
  omega

theorem encDISP_fields {w p : Word} {store y : BitVec 1} (h : w &&& 0xD208 = p) (h14 : field p 14 2 = 0b10)
    (h12 : field p 12 1 = 0) (hs : field p 9 1 = store) (hy : field p 3 1 = y) :
    encDISP store y (fieldD w) (fieldQ w) = w := by
  rw [← field_of_and_eq h (by decide)] at h14 h12 hs hy
  rw [← hs, ← hy, encDISP_eq, dispOpcode_fields h14 h12, dispMode_fields, encOneReg_self]

/-- LD and ST through Y or Z have the bits of displacement 0. -/
theorem encDISP_zero_fields {w p : Word} {store y : BitVec 1} (h : w &&& 0xFE0F = p)
    (hp : field p 9 7 = dispOpcode store 0) (hm : field p 0 4 = dispMode y 0) : encDISP store y (fieldD w) 0 = w := by
  rw [encDISP_eq, encOneReg_fields h hp hm]

/-! ### Formats `IOA6` and `IOB` -/

theorem encIOA6_toNat (op : BitVec 5) (d : Reg) (A : BitVec 6) :
    (encIOA6 op d A).toNat = op.toNat * 2048 + A.toNat / 16 * 512 + d.val * 16 + A.toNat % 16 := by
  refine (append4_toNat _ _ _ _).trans ?_
  simp [Nat.shiftRight_eq_div_pow]
  omega

theorem encIOA6_known (op : BitVec 5) (d : Reg) (A : BitVec 6) :
    encIOA6 op d A &&& 0xF800 = op.setWidth 16 <<< 11 := by
  refine and_field_mask (lo := 11) (len := 5) (BitVec.eq_of_toNat_eq ?_)
  have hi : A.toNat / 16 < 4 := by omega
  have lo : A.toNat % 16 < 16 := by omega
  simp only [field_toNat, encIOA6_toNat, Nat.reducePow]
  generalize A.toNat / 16 = x, A.toNat % 16 = y at hi lo
  omega

@[simp] theorem fieldD_encIOA6 (op : BitVec 5) (d : Reg) (A : BitVec 6) : fieldD (encIOA6 op d A) = d := by
  apply Fin.ext
  rw [fieldD_val, encIOA6_toNat]
  omega

@[simp] theorem fieldA6_encIOA6 (op : BitVec 5) (d : Reg) (A : BitVec 6) : fieldA6 (encIOA6 op d A) = A := by
  apply BitVec.eq_of_toNat_eq
  rw [fieldA6_toNat, encIOA6_toNat]
  omega

theorem encIOA6_fields {w p : Word} {op : BitVec 5} (h : w &&& 0xF800 = p) (hp : field p 11 5 = op) :
    encIOA6 op (fieldD w) (fieldA6 w) = w := by
  rw [← hp, ← field_of_and_eq h (by decide)]
  apply BitVec.eq_of_toNat_eq
  simp only [encIOA6_toNat, fieldD_val, field_toNat, fieldA6_toNat, Nat.reducePow]
  omega

theorem encIOB_toNat (op : BitVec 8) (A : BitVec 5) (b : Fin 8) :
    (encIOB op A b).toNat = op.toNat * 256 + A.toNat * 8 + b.val := by
  refine (append3_toNat _ _ _).trans ?_
  simp
  omega

theorem encIOB_known (op : BitVec 8) (A : BitVec 5) (b : Fin 8) : encIOB op A b &&& 0xFF00 = op.setWidth 16 <<< 8 := by
  refine and_field_mask (lo := 8) (len := 8) (BitVec.eq_of_toNat_eq ?_)
  simp only [field_toNat, encIOB_toNat, Nat.reducePow]
  omega

@[simp] theorem bitOf_encIOB (op : BitVec 8) (A : BitVec 5) (b : Fin 8) : bitOf (field (encIOB op A b) 0 3) = b := by
  apply Fin.ext
  rw [bitOf_val, field_toNat, encIOB_toNat]
  omega

@[simp] theorem location_encIOB (op : BitVec 8) (A : BitVec 5) (b : Fin 8) : field (encIOB op A b) 3 5 = A := by
  apply BitVec.eq_of_toNat_eq
  rw [field_toNat, encIOB_toNat]
  omega

theorem encIOB_fields {w p : Word} {op : BitVec 8} (h : w &&& 0xFF00 = p) (hp : field p 8 8 = op) :
    encIOB op (field w 3 5) (bitOf (field w 0 3)) = w := by
  rw [← hp, ← field_of_and_eq h (by decide)]
  apply BitVec.eq_of_toNat_eq
  simp only [encIOB_toNat, bitOf_val, field_toNat, Nat.reducePow]
  omega

/-! ### Formats `RB` and `SF` -/

theorem encRB_toNat (op : BitVec 7) (d : Reg) (b : Fin 8) :
    (encRB op d b).toNat = op.toNat * 512 + d.val * 16 + b.val := by
  refine (append4_toNat _ _ _ _).trans ?_
  simp
  omega

theorem encRB_known (op : BitVec 7) (d : Reg) (b : Fin 8) :
    encRB op d b &&& 0xFE08 = op.setWidth 16 <<< 9 ||| (0#1).setWidth 16 <<< 3 := by
  refine and_or_eq (and_field_mask (lo := 9) (len := 7) (BitVec.eq_of_toNat_eq ?_))
    (and_field_mask (lo := 3) (len := 1) (BitVec.eq_of_toNat_eq ?_)) <;>
  · simp only [field_toNat, encRB_toNat, Nat.reducePow, BitVec.reduceToNat]
    omega

@[simp] theorem fieldD_encRB (op : BitVec 7) (d : Reg) (b : Fin 8) : fieldD (encRB op d b) = d := by
  apply Fin.ext
  rw [fieldD_val, encRB_toNat]
  omega

@[simp] theorem bitOf_encRB (op : BitVec 7) (d : Reg) (b : Fin 8) : bitOf (field (encRB op d b) 0 3) = b := by
  apply Fin.ext
  rw [bitOf_val, field_toNat, encRB_toNat]
  omega

theorem encRB_fields {w p : Word} {op : BitVec 7} (h : w &&& 0xFE08 = p) (hp : field p 9 7 = op)
    (h3 : field p 3 1 = 0) : encRB op (fieldD w) (bitOf (field w 0 3)) = w := by
  have h3' := congrArg BitVec.toNat ((field_of_and_eq h (by decide)).trans h3)
  rw [← hp, ← field_of_and_eq h (by decide)]
  apply BitVec.eq_of_toNat_eq
  simp only [encRB_toNat, bitOf_val, fieldD_val, field_toNat, Nat.reducePow, BitVec.reduceToNat] at h3' ⊢
  omega

theorem encSF_toNat (op : BitVec 1) (s : Fin 8) :
    (encSF op s).toNat = 0b10010100 * 256 + op.toNat * 128 + s.val * 16 + 8 := by
  refine (append4_toNat _ _ _ _).trans ?_
  simp
  omega

theorem encSF_known (op : BitVec 1) (s : Fin 8) :
    encSF op s &&& 0xFF8F =
      (0b10010100#8).setWidth 16 <<< 8 ||| op.setWidth 16 <<< 7 ||| (0b1000#4).setWidth 16 <<< 0 := by
  refine and_or_eq (and_or_eq (and_field_mask (lo := 8) (len := 8) (BitVec.eq_of_toNat_eq ?_))
    (and_field_mask (lo := 7) (len := 1) (BitVec.eq_of_toNat_eq ?_)))
    (and_field_mask (lo := 0) (len := 4) (BitVec.eq_of_toNat_eq ?_)) <;>
  · simp only [field_toNat, encSF_toNat, Nat.reducePow, BitVec.reduceToNat]
    omega

@[simp] theorem bitOf_encSF (op : BitVec 1) (s : Fin 8) : bitOf (field (encSF op s) 4 3) = s := by
  apply Fin.ext
  rw [bitOf_val, field_toNat, encSF_toNat]
  omega

theorem encSF_fields {w p : Word} {op : BitVec 1} (h : w &&& 0xFF8F = p) (h8 : field p 8 8 = 0b10010100)
    (hp : field p 7 1 = op) (h0 : field p 0 4 = 0b1000) : encSF op (bitOf (field w 4 3)) = w := by
  have h8' := congrArg BitVec.toNat ((field_of_and_eq h (by decide)).trans h8)
  have h0' := congrArg BitVec.toNat ((field_of_and_eq h (by decide)).trans h0)
  rw [← hp, ← field_of_and_eq h (by decide)]
  apply BitVec.eq_of_toNat_eq
  simp only [encSF_toNat, bitOf_val, field_toNat, Nat.reducePow, BitVec.reduceToNat] at h8' h0' ⊢
  omega

/-! ### Format `MUL3`, and the words of MULS, MOVW and DES -/

theorem encMUL3_toNat (o7 o3 : BitVec 1) (d r : Reg) :
    (encMUL3 o7 o3 d r).toNat =
      3 * 256 + o7.toNat * 128 + (d.val - 16) % 8 * 16 + o3.toNat * 8 + (r.val - 16) % 8 := by
  refine (append5_toNat _ _ _ _ _).trans ?_
  simp
  omega

theorem encMUL3_known (o7 o3 : BitVec 1) (d r : Reg) :
    encMUL3 o7 o3 d r &&& 0xFF88 =
      (0b00000011#8).setWidth 16 <<< 8 ||| o7.setWidth 16 <<< 7 ||| o3.setWidth 16 <<< 3 := by
  have hd : (d.val - 16) % 8 < 8 := by omega
  have hr : (r.val - 16) % 8 < 8 := by omega
  refine and_or_eq (and_or_eq (and_field_mask (lo := 8) (len := 8) (BitVec.eq_of_toNat_eq ?_))
    (and_field_mask (lo := 7) (len := 1) (BitVec.eq_of_toNat_eq ?_)))
    (and_field_mask (lo := 3) (len := 1) (BitVec.eq_of_toNat_eq ?_)) <;>
  · simp only [field_toNat, encMUL3_toNat, Nat.reducePow, BitVec.reduceToNat]
    generalize (d.val - 16) % 8 = x, (r.val - 16) % 8 = y at hd hr
    omega

theorem midReg_iff {d : Reg} : midReg d = true ↔ 16 ≤ d.val ∧ d.val ≤ 23 := by simp [midReg]

@[simp] theorem regMid_d_encMUL3 (o7 o3 : BitVec 1) {d : Reg} (r : Reg) (hd : midReg d = true) :
    regMid (field (encMUL3 o7 o3 d r) 4 3) = d := by
  rw [midReg_iff] at hd
  apply Fin.ext
  rw [regMid_val, field_toNat, encMUL3_toNat]
  omega

@[simp] theorem regMid_r_encMUL3 (o7 o3 : BitVec 1) (d : Reg) {r : Reg} (hr : midReg r = true) :
    regMid (field (encMUL3 o7 o3 d r) 0 3) = r := by
  rw [midReg_iff] at hr
  apply Fin.ext
  rw [regMid_val, field_toNat, encMUL3_toNat]
  omega

theorem encMUL3_fields {w p : Word} {o7 o3 : BitVec 1} (h : w &&& 0xFF88 = p) (h8 : field p 8 8 = 0b00000011)
    (h7 : field p 7 1 = o7) (h3 : field p 3 1 = o3) :
    encMUL3 o7 o3 (regMid (field w 4 3)) (regMid (field w 0 3)) = w := by
  have h8' := congrArg BitVec.toNat ((field_of_and_eq h (by decide)).trans h8)
  rw [← h7, ← h3, ← field_of_and_eq h (by decide), ← field_of_and_eq h (by decide)]
  apply BitVec.eq_of_toNat_eq
  simp only [encMUL3_toNat, regMid_val, field_toNat, Nat.reducePow, BitVec.reduceToNat] at h8' ⊢
  omega

/-- Eight opcode bits and two four-bit fields. -/
theorem twoFields_toNat (op : BitVec 8) (x y : BitVec 4) :
    (op ++ x ++ y : Word).toNat = op.toNat * 256 + x.toNat * 16 + y.toNat := by
  refine (append3_toNat _ _ _).trans ?_
  omega

theorem opcode_twoFields (op : BitVec 8) (x y : BitVec 4) : field (op ++ x ++ y) 8 8 = op := by
  apply BitVec.eq_of_toNat_eq
  simp only [field_toNat, twoFields_toNat, Nat.reducePow]
  omega

@[simp] theorem high_twoFields (op : BitVec 8) (x y : BitVec 4) : field (op ++ x ++ y) 4 4 = x := by
  apply BitVec.eq_of_toNat_eq
  simp only [field_toNat, twoFields_toNat, Nat.reducePow]
  omega

@[simp] theorem low_twoFields (op : BitVec 8) (x y : BitVec 4) : field (op ++ x ++ y) 0 4 = y := by
  apply BitVec.eq_of_toNat_eq
  simp only [field_toNat, twoFields_toNat, Nat.reducePow]
  omega

theorem twoFields_known (op : BitVec 8) (x y : BitVec 4) :
    (op ++ x ++ y : Word) &&& 0xFF00 = op.setWidth 16 <<< 8 :=
  and_field_mask (opcode_twoFields op x y)

theorem twoFields_known_low (op : BitVec 8) (x y : BitVec 4) :
    (op ++ x ++ y : Word) &&& 0xFF0F = op.setWidth 16 <<< 8 ||| y.setWidth 16 <<< 0 :=
  and_or_eq (and_field_mask (opcode_twoFields op x y)) (and_field_mask (low_twoFields op x y))

theorem twoFields_self (w : Word) : (field w 8 8 ++ field w 4 4 ++ field w 0 4 : Word) = w := by
  apply BitVec.eq_of_toNat_eq
  simp only [twoFields_toNat, field_toNat, Nat.reducePow]
  omega

theorem twoFields_fields {w p : Word} {op : BitVec 8} (h : w &&& 0xFF00 = p) (hp : field p 8 8 = op) :
    (op ++ field w 4 4 ++ field w 0 4 : Word) = w := by
  rw [← hp, ← field_of_and_eq h (by decide), twoFields_self]

theorem twoFields_fields_low {w p : Word} {op : BitVec 8} {y : BitVec 4} (h : w &&& 0xFF0F = p)
    (hp : field p 8 8 = op) (hy : field p 0 4 = y) : (op ++ field w 4 4 ++ y : Word) = w := by
  rw [← hp, ← hy, ← field_of_and_eq h (by decide), ← field_of_and_eq h (by decide), twoFields_self]

@[simp] theorem regHigh_bitsHigh {d : Reg} (hd : highReg d = true) : regHigh (bitsHigh d) = d := by
  rw [highReg_iff] at hd
  apply Fin.ext
  rw [regHigh_val, bitsHigh_toNat]
  omega

theorem evenReg_iff {d : Reg} : evenReg d = true ↔ d.val % 2 = 0 := by simp [evenReg]

@[simp] theorem regEven_bitsEven {d : Reg} (hd : evenReg d = true) : regEven (bitsEven d) = d := by
  rw [evenReg_iff] at hd
  apply Fin.ext
  rw [regEven_val, bitsEven_toNat]
  omega

@[simp] theorem bitsHigh_regHigh (x : BitVec 4) : bitsHigh (regHigh x) = x := by
  apply BitVec.eq_of_toNat_eq
  rw [bitsHigh_toNat, regHigh_val]
  omega

@[simp] theorem bitsEven_regEven (x : BitVec 4) : bitsEven (regEven x) = x := by
  apply BitVec.eq_of_toNat_eq
  rw [bitsEven_toNat, regEven_val]
  omega

/-! ### Words with no field -/

theorem and_allOnes16 (w : Word) : w &&& 0xFFFF = w := BitVec.and_allOnes

end Sys2Proof
end

section
/-! SUPPORT. The round trips of spec/30_encoding.md R104: from an instruction to its words and back, and from words to an
instruction and back. Alias rows and displacement 0 are left to `Instr.canonical` (R115). -/

namespace Sys2Proof

/-! ### From the instruction -/

theorem available_cores {c : Config} {f : Form} (h : available c f = true) : c.core ∈ f.cores c := by
  simp only [available, Bool.and_eq_true] at h
  exact List.contains_iff_mem.1 h.1.1.1.1

/-- The LDD and STD rows with another displacement than 0, whose words overlap those of LD and ST and, on AVRrc, those of
the 16-bit LDS and STS (R104, R108). -/
theorem findForm_encDISP {core : Core} (store y : BitVec 1) (d : Reg) {q : BitVec 6} (hq : q ≠ 0)
    (hcore : core ≠ .AVRrc) :
    findForm core (encDISP store y d q) =
      some (if store = 0 then (if y = 1 then .lddY else .lddZ) else (if y = 1 then .stdY else .stdZ)) := by
  refine findForm_of_known (encDISP_known store y d q) (by decide) (fun h => absurd h hcore) ?_
  revert q store y
  decide +kernel

/-- The words of the 16-bit LDS and STS on AVRrc (R108): bit 11 tells them apart. -/
theorem findForm_encDS16 (op : BitVec 5) (d : Reg) (k : BitVec 7) (h : op.extractLsb' 1 4 = 0b1010) :
    findForm .AVRrc (encDS16 op d k) = some (if op.getLsbD 0 then .sts16 else .lds16) := by
  have hop := opcode_encDS16 op d k
  have hn : field (encDS16 op d k) 12 4 = (field (encDS16 op d k) 11 5).extractLsb' 1 4 := by
    apply BitVec.eq_of_toNat_eq
    simp only [field_toNat, BitVec.extractLsb'_toNat, Nat.shiftRight_eq_div_pow, Nat.reducePow]
    omega
  have hb : (encDS16 op d k).getLsbD 11 = (field (encDS16 op d k) 11 5).getLsbD 0 := by
    simp [field]
  rw [findForm_short (by rw [hn, hop, h]), hb, hop]

/-- The first word of a canonical instruction that the core has decodes to its form. -/
theorem findForm_encode {c : Config} {i : Instr} (hc : i.canonical = i) (ha : available c i.form = true) :
    findForm c.core ((encode i).headD 0) = some i.form := by
  have hcore := available_cores ha
  cases i with
  | add d r | adc d r | sub d r | sbc d r | and d r | or d r | eor d r | mul d r | cpse d r | cp d r | cpc d r
  | mov d r => exact findForm_of_known (encRR5_known _ d r) rfl (fun _ => by decide) rfl
  | subi d K | sbci d K | andi d K | ori d K | cpi d K | ldi d K =>
    exact findForm_of_known (encRI8_known _ d K) rfl (fun _ => by decide) rfl
  | com d | neg d | inc d | dec d | ldX d | ldXInc d | ldXDec d | ldYInc d | ldYDec d | ldZInc d | ldZDec d | stX d
  | stXInc d | stXDec d | stYInc d | stYDec d | stZInc d | stZDec d | lpm d | lpmInc d | elpm d | elpmInc d | push d
  | pop d | xch d | las d | lac d | lat d | lsr d | ror d | asr d | swap d | lds d _ | sts _ d =>
    exact findForm_of_known (encOneReg_known _ d _) rfl (fun _ => by decide) rfl
  | adiw d K | sbiw d K => exact findForm_of_known (encIW_known _ d K) rfl (fun _ => by decide) rfl
  | muls d r | movw d r => exact findForm_of_known (twoFields_known _ _ _) rfl (fun _ => by decide) rfl
  | mulsu d r | fmul d r | fmuls d r | fmulsu d r =>
    exact findForm_of_known (encMUL3_known _ _ d r) rfl (fun _ => by decide) rfl
  | des K => exact findForm_of_known (twoFields_known_low _ K _) rfl (fun _ => by decide) rfl
  | rjmp k | rcall k => exact findForm_of_known (encRJ_known _ k) rfl (fun _ => by decide) rfl
  | jmp k | call k => exact findForm_of_known (encJC32_known _ k) rfl (fun _ => by decide) rfl
  | sbrc r b | sbrs r b | bst r b | bld r b => exact findForm_of_known (encRB_known _ r b) rfl (fun _ => by decide) rfl
  | sbic A b | sbis A b | sbi A b | cbi A b =>
    exact findForm_of_known (encIOB_known _ A b) rfl (fun _ => by decide) rfl
  | brbs s k | brbc s k => exact findForm_of_known (encBR_known _ s k) rfl (fun _ => by decide) rfl
  | bset s | bclr s => exact findForm_of_known (encSF_known _ s) rfl (fun _ => by decide) rfl
  | inIo d A | outIo A d => exact findForm_of_known (encIOA6_known _ d A) rfl (fun _ => by decide) rfl
  | ijmp | eijmp | icall | eicall | ret | reti | lpmR0 | elpmR0 | spm | spmInc | brk | nop | sleep | wdr =>
    exact findForm_of_known (and_allOnes16 _) rfl (fun _ => by decide) rfl
  | ldY d | ldZ d | stY d | stZ d => exact findForm_of_known (encDISP_known _ _ d 0) rfl (fun _ => by decide) rfl
  | lddY d q | lddZ d q | stdY q d | stdZ q d =>
    have hq : q ≠ 0 := by
      rintro rfl
      cases hc
    have hrc : c.core ≠ .AVRrc := by
      intro h
      simp [h, Instr.form, Form.cores] at hcore
    exact findForm_encDISP _ _ d hq hrc
  | lds16 d k | sts16 k d =>
    have hrc : c.core = .AVRrc := List.mem_singleton.1 hcore
    rw [hrc]
    exact findForm_encDS16 _ d k rfl
  | _ => cases hc

/-- The fields of a well-formed canonical instruction's words are its operands. -/
theorem buildInstr_encode {i : Instr} (hc : i.canonical = i) (hw : i.wf = true) :
    buildInstr i.form ((encode i).headD 0) ((encode i).getD 1 0) = i := by
  cases i with
  | subi d K | sbci d K | andi d K | ori d K | cpi d K | ldi d K | lds16 d K | sts16 K d =>
    have hd : highReg d = true := hw
    simp [encode, Instr.form, buildInstr, hd]
  | adiw d K | sbiw d K =>
    have hd : pairReg d = true := hw
    simp [encode, Instr.form, buildInstr, hd]
  | muls d r | mulsu d r | fmul d r | fmuls d r | fmulsu d r | movw d r =>
    obtain ⟨hd, hr⟩ := Bool.and_eq_true_iff.1 hw
    simp [encode, Instr.form, buildInstr, hd, hr]
  | sbr _ _ | cbr _ _ | tst _ | clr _ | ser _ | lsl _ | rol _ => cases hc
  | breq _ | brne _ | brcs _ | brcc _ | brsh _ | brlo _ | brmi _ | brpl _ | brge _ | brlt _ | brhs _ | brhc _
  | brts _ | brtc _ | brvs _ | brvc _ | brie _ | brid _ => cases hc
  | sec | clc | sen | cln | sez | clz | sei | cli | ses | cls | sev | clv | set | clt | seh | clh => cases hc
  | _ => simp [encode, Instr.form, buildInstr]

/-- The register check passes an instruction on where its registers exist (R113). -/
theorem checkRegs_eq_ok {c : Config} {i j : Instr} :
    checkRegs c.core i = .ok j ↔ j = i ∧ Machine.RegsExist c i := by
  unfold checkRegs Machine.RegsExist
  by_cases hc : c.core = .AVRrc
  · rw [if_pos hc]
    cases hf : i.regs.find? fun r => decide (r.val < 16) with
    | none =>
      have hall : ∀ r ∈ i.regs, 16 ≤ r.val := by simpa using hf
      simpa [eq_comm] using fun _ _ => hall
    | some r =>
      have hr : r.val < 16 := by simpa using List.find?_some hf
      have hmem := List.mem_of_find?_eq_some hf
      simp only [reduceCtorEq, hc, forall_const, false_iff, not_and]
      exact fun _ h => absurd (h r hmem) (by omega)
  · simp [hc, eq_comm]

/-! ### What decoding answers, cause by cause in the order of R378 -/

theorem decode_reserved {c : Config} {w : Word} (more : List Byte) (hf : findForm c.core w = none) :
    decode c (wordBytes [w] ++ more) = .error (.reserved w) := by
  simp [decode, wordBytes, word_bytes, hf]

theorem decode_unavailable {c : Config} {w : Word} {f : Form} (more : List Byte) (hf : findForm c.core w = some f)
    (ha : available c f = false) : decode c (wordBytes [w] ++ more) = .error (.unavailable f) := by
  simp [decode, wordBytes, word_bytes, hf, ha]

theorem decode_noSecondWord {c : Config} {w : Word} {f : Form} {more : List Byte} (hf : findForm c.core w = some f)
    (ha : available c f = true) (ht : f.twoWords = true) (hm : more.length < 2) :
    decode c (wordBytes [w] ++ more) = .error .noSecondWord := by
  match more, hm with
  | [], _ | [_], _ => simp [decode, wordBytes, word_bytes, hf, ha, ht]

theorem decode_oneWord {c : Config} {w : Word} {f : Form} (rest : List Byte) (hf : findForm c.core w = some f)
    (ha : available c f = true) (ht : f.twoWords = false) :
    decode c (wordBytes [w] ++ rest) = (checkRegs c.core (buildInstr f w 0)).map fun i => (i, rest) := by
  simp [decode, wordBytes, word_bytes, hf, ha, ht]

theorem decode_twoWords {c : Config} {w : Word} {f : Form} (w2 : Word) (rest : List Byte)
    (hf : findForm c.core w = some f) (ha : available c f = true) (ht : f.twoWords = true) :
    decode c (wordBytes [w, w2] ++ rest) = (checkRegs c.core (buildInstr f w w2)).map fun i => (i, rest) := by
  simp [decode, wordBytes, word_bytes, hf, ha, ht]

/-- An instruction is encoded in two words where its form has two, else in one (R100). -/
theorem encode_length (i : Instr) : (encode i).length = if i.form.twoWords then 2 else 1 := by
  cases i <;> rfl

/-- Decoding undoes encoding, for the instructions the decoder answers. -/
theorem decode_encode_of_canonical {c : Config} {i : Instr} (rest : List Byte) (hc : i.canonical = i)
    (hw : i.wf = true) (ha : available c i.form = true) (hr : Machine.RegsExist c i) :
    decode c (wordBytes (encode i) ++ rest) = .ok (i, rest) := by
  have hf := findForm_encode hc ha
  have hb := buildInstr_encode hc hw
  have hok : (checkRegs c.core i).map (fun j => (j, rest)) = .ok (i, rest) := by
    rw [checkRegs_eq_ok.2 ⟨rfl, hr⟩]
    rfl
  have hlen := encode_length i
  cases ht : i.form.twoWords with
  | true =>
    rw [ht] at hlen
    obtain ⟨w, w2, he⟩ := List.length_eq_two.1 hlen
    simp only [he, List.headD_cons, List.getD_cons_succ, List.getD_cons_zero] at hf hb
    rw [he, decode_twoWords w2 rest hf ha ht, hb, hok]
  | false =>
    rw [ht] at hlen
    obtain ⟨w, he⟩ := List.length_eq_one_iff.1 hlen
    simp only [he, List.headD_cons, List.getD_cons_succ, List.getD_nil] at hf hb
    rw [he, decode_oneWord rest hf ha ht, hb, hok]

/-! ### To canonical instructions -/

theorem canonical_canonical (i : Instr) : i.canonical.canonical = i.canonical := by
  cases i with
  | lddY d q | lddZ d q | stdY q d | stdZ q d =>
    by_cases hq : q = 0
    · subst hq
      rfl
    · simp only [Instr.canonical, if_neg hq]
  | _ => rfl

theorem canonical_wf {i : Instr} (h : i.wf = true) : i.canonical.wf = true := by
  cases i with
  | lddY d q | lddZ d q | stdY q d | stdZ q d =>
    by_cases hq : q = 0
    · subst hq
      rfl
    · rwa [Instr.canonical, if_neg hq]
  | _ => exact h

/-- An instruction and its canonical one name the same registers. -/
theorem mem_regs_canonical {i : Instr} {r : Reg} : r ∈ i.canonical.regs ↔ r ∈ i.regs := by
  cases i with
  | lddY d q | lddZ d q | stdY q d | stdZ q d =>
    by_cases hq : q = 0
    · subst hq
      rfl
    · rw [Instr.canonical, if_neg hq]
  | tst d | clr d | lsl d | rol d => simp [Instr.canonical, Instr.regs]
  | _ => rfl

theorem regsExist_canonical {c : Config} {i : Instr} : Machine.RegsExist c i.canonical ↔ Machine.RegsExist c i := by
  simp only [Machine.RegsExist, mem_regs_canonical]

/-- Decoding the words of a well-formed instruction that the core has answers its canonical instruction and leaves the
bytes after them. -/
theorem decode_encode {c : Config} {i : Instr} (rest : List Byte) (hw : i.wf = true)
    (ha : available c i.canonical.form = true) (hr : Machine.RegsExist c i) :
    decode c (wordBytes (encode i) ++ rest) = .ok (i.canonical, rest) := by
  rw [Machine.encode_canonical]
  exact decode_encode_of_canonical rest (canonical_canonical i) (canonical_wf hw) ha (regsExist_canonical.2 hr)

/-- Settles O1, by `decode_encode`: the bits known of each row's words single the row out, and its fields read back. -/
theorem decodeOfEncodeArithmetic : Obligations.DecodeOfEncodeArithmetic :=
  fun _ _ rest _ hw ha hr => decode_encode rest hw ha hr

/-- Settles O2, by `decode_encode`. -/
theorem decodeOfEncodeBranch : Obligations.DecodeOfEncodeBranch :=
  fun _ _ rest _ hw ha hr => decode_encode rest hw ha hr

/-- Settles O3, by `decode_encode`, whose hard rows are here: LDD and STD with a displacement (`findForm_encDISP`), the
16-bit LDS and STS (`findForm_encDS16`). -/
theorem decodeOfEncodeTransfer : Obligations.DecodeOfEncodeTransfer :=
  fun _ _ rest _ hw ha hr => decode_encode rest hw ha hr

/-- Settles O4, by `decode_encode`. -/
theorem decodeOfEncodeBitAndControl : Obligations.DecodeOfEncodeBitAndControl :=
  fun _ _ rest _ hw ha hr => decode_encode rest hw ha hr

/-! ### From the words -/

/-- Two bytes are the bytes of their word. -/
theorem cons_cons_eq_wordBytes (lo hi : Byte) (more : List Byte) : lo :: hi :: more = wordBytes [hi ++ lo] ++ more := by
  simp only [wordBytes, word_low, word_high, List.cons_append, List.nil_append]

theorem wordBytes_append_cons_cons (w : Word) (lo hi : Byte) (more : List Byte) :
    wordBytes [w] ++ lo :: hi :: more = wordBytes [w, hi ++ lo] ++ more := by
  simp only [wordBytes, word_low, word_high, List.cons_append, List.nil_append]

theorem map_pair_eq_ok {e : Except DecodeError Instr} {i : Instr} {more rest : List Byte}
    (h : (e.map fun i => (i, more)) = .ok (i, rest)) : e = .ok i ∧ more = rest := by
  cases e with
  | error e => cases h
  | ok j =>
    cases h
    exact ⟨rfl, rfl⟩

/-- What a successful decoding has read: one word or two, of a form that the core has, with registers that exist. -/
theorem decode_ok {c : Config} {bytes : List Byte} {i : Instr} {rest : List Byte}
    (h : decode c bytes = .ok (i, rest)) :
    ∃ w f, findForm c.core w = some f ∧ available c f = true ∧ Machine.RegsExist c i ∧
      ((f.twoWords = false ∧ bytes = wordBytes [w] ++ rest ∧ i = buildInstr f w 0) ∨
        (f.twoWords = true ∧ ∃ w2, bytes = wordBytes [w, w2] ++ rest ∧ i = buildInstr f w w2)) := by
  match bytes, h with
  | lo :: hi :: more, h =>
    rw [cons_cons_eq_wordBytes] at h ⊢
    cases hf : findForm c.core (hi ++ lo) with
    | none =>
      rw [decode_reserved more hf] at h
      cases h
    | some f =>
      refine ⟨_, f, hf, ?_⟩
      cases ha : available c f with
      | false =>
        rw [decode_unavailable more hf ha] at h
        cases h
      | true =>
        cases ht : f.twoWords with
        | false =>
          rw [decode_oneWord more hf ha ht] at h
          obtain ⟨hi, rfl⟩ := map_pair_eq_ok h
          obtain ⟨rfl, hr⟩ := checkRegs_eq_ok.1 hi
          exact ⟨rfl, hr, .inl ⟨rfl, rfl, rfl⟩⟩
        | true =>
          match more, h with
          | lo2 :: hi2 :: rest2, h =>
            rw [wordBytes_append_cons_cons] at h ⊢
            rw [decode_twoWords (hi2 ++ lo2) rest2 hf ha ht] at h
            obtain ⟨hi, rfl⟩ := map_pair_eq_ok h
            obtain ⟨rfl, hr⟩ := checkRegs_eq_ok.1 hi
            exact ⟨rfl, hr, .inr ⟨rfl, _, rfl, rfl⟩⟩
          | [], h | [_], h =>
            rw [decode_noSecondWord hf ha ht (by simp)] at h
            cases h

/-- The opcode line of a form: its row, for the forms that have one. -/
def Form.line (f : Form) : Row :=
  (((List.finRange 16).flatMap fun n => rowsOf (BitVec.ofFin n)).find? fun r => r.form = f).getD ⟨f, 0, 0⟩

/-- No form has two rows that differ. -/
theorem eq_line_of_mem : ∀ n, ∀ row ∈ rowsOf n, row = row.form.line := by
  decide +kernel

/-- A word with the form of a row matches the row's line. -/
theorem and_line {core : Core} {w : Word} {f : Form} (h : findForm core w = some f) (h16 : f ≠ .lds16 ∧ f ≠ .sts16) :
    w &&& f.line.mask = f.line.pattern := by
  rcases findForm_some h with ⟨-, -, hf⟩ | ⟨row, hrow, rfl, hm⟩
  · split at hf
    · exact absurd hf h16.2
    · exact absurd hf h16.1
  · rwa [← eq_line_of_mem _ row hrow]

/-- No row of the opcode map has a form of R108. -/
theorem form_ne_short_of_mem : ∀ n, ∀ row ∈ rowsOf n, row.form ≠ .lds16 ∧ row.form ≠ .sts16 := by
  decide +kernel

/-- The opcode bits of a word that decodes to a 16-bit LDS or STS (R108). -/
theorem opcode_of_findForm_short {core : Core} {w : Word} {f : Form} (h : findForm core w = some f)
    (hs : f = .lds16 ∨ f = .sts16) : field w 11 5 = if f = .sts16 then 0b10101 else 0b10100 := by
  rcases findForm_some h with ⟨-, hn, rfl⟩ | ⟨row, hrow, rfl, -⟩
  · have hn' := (field_toNat w 12 4).symm.trans (congrArg BitVec.toNat hn)
    have hb : w.getLsbD 11 = decide (w.toNat / 2048 % 2 = 1) := Nat.testBit_eq_decide_div_mod_eq
    apply BitVec.eq_of_toNat_eq
    rw [field_toNat, hb]
    by_cases h11 : w.toNat / 2048 % 2 = 1 <;> simp [h11] at hn' ⊢ <;> omega
  · have := form_ne_short_of_mem _ row hrow
    tauto

/-- The fields of a word, put back in the format of the form it decodes to, are the word. -/
theorem encode_buildInstr {core : Core} {w : Word} {f : Form} (w2 : Word) (h : findForm core w = some f) :
    encode (buildInstr f w w2) = if f.twoWords then [w, w2] else [w] := by
  have hline := and_line h
  have one {x : Word} (hx : x = w) : [x] = [w] := congrArg (fun v => [v]) hx
  have two {x y : Word} (hx : x = w) (hy : y = w2) : [x, y] = [w, w2] := by rw [hx, hy]
  cases f with
  | add | adc | sub | sbc | and | or | eor | mul | cpse | cp | cpc | mov =>
    exact one (encRR5_fields (hline (by decide)) rfl)
  | subi | sbci | andi | ori | cpi | ldi => exact one (encRI8_fields (hline (by decide)) rfl)
  | com | neg | inc | dec | ldX | ldXInc | ldXDec | ldYInc | ldYDec | ldZInc | ldZDec | stX | stXInc | stXDec | stYInc
  | stYDec | stZInc | stZDec | lpm | lpmInc | elpm | elpmInc | push | pop | xch | las | lac | lat | lsr | ror | asr
  | swap => exact one (encOneReg_fields (hline (by decide)) rfl rfl)
  | lds | sts => exact two (encOneReg_fields (hline (by decide)) rfl rfl) rfl
  | adiw | sbiw => exact one (encIW_fields (hline (by decide)) rfl)
  | muls =>
    refine one (Eq.trans ?_ (twoFields_fields (hline (by decide)) rfl))
    rw [bitsHigh_regHigh, bitsHigh_regHigh]
    rfl
  | movw =>
    refine one (Eq.trans ?_ (twoFields_fields (hline (by decide)) rfl))
    rw [bitsEven_regEven, bitsEven_regEven]
    rfl
  | mulsu | fmul | fmuls | fmulsu => exact one (encMUL3_fields (hline (by decide)) rfl rfl rfl)
  | des => exact one (twoFields_fields_low (hline (by decide)) rfl rfl)
  | rjmp | rcall => exact one (encRJ_fields (hline (by decide)) rfl)
  | jmp | call => exact two (encJC32_fields w2 (hline (by decide)) rfl rfl) (low_fieldK22 w w2)
  | sbrc | sbrs | bst | bld => exact one (encRB_fields (hline (by decide)) rfl rfl)
  | sbic | sbis | sbi | cbi => exact one (encIOB_fields (hline (by decide)) rfl)
  | brbs | brbc => exact one (encBR_fields (hline (by decide)) rfl)
  | bset | bclr => exact one (encSF_fields (hline (by decide)) rfl rfl rfl)
  | inIo | outIo => exact one (encIOA6_fields (hline (by decide)) rfl)
  | ijmp | eijmp | icall | eicall | ret | reti | lpmR0 | elpmR0 | spm | spmInc | brk | nop | sleep | wdr =>
    exact one ((hline (by decide)).symm.trans (and_allOnes16 w))
  | ldY | ldZ | stY | stZ => exact one (encDISP_zero_fields (hline (by decide)) rfl rfl)
  | lddY | lddZ | stdY | stdZ => exact one (encDISP_fields (hline (by decide)) rfl rfl rfl rfl)
  | lds16 => exact one (encDS16_fields (opcode_of_findForm_short h (.inl rfl)))
  | sts16 => exact one (encDS16_fields (opcode_of_findForm_short h (.inr rfl)))

/-- The fields of any word are operands that the encodings can hold (R110). -/
theorem buildInstr_wf (f : Form) (w w2 : Word) : (buildInstr f w w2).wf = true := by
  have high (x : BitVec 4) : highReg (regHigh x) = true := by
    rw [highReg_iff, regHigh_val]
    omega
  have mid (x : BitVec 3) : midReg (regMid x) = true := by
    rw [midReg_iff, regMid_val]
    omega
  have pair (x : BitVec 2) : pairReg (regPair x) = true := by
    rw [pairReg_iff, regPair_val]
    omega
  have even (x : BitVec 4) : evenReg (regEven x) = true := by
    rw [evenReg_iff, regEven_val]
    omega
  cases f <;> simp only [buildInstr, Instr.wf, high, mid, pair, even, Bool.and_self]

theorem buildInstr_form (f : Form) (w w2 : Word) : (buildInstr f w w2).form = f := by
  cases f <;> rfl

/-- A word that decodes to LDD or STD has another displacement than 0: with displacement 0 the rows of LD and ST, which
stand before, match it (R104 step 2). -/
theorem fieldQ_ne_zero {core : Core} {w : Word} {f : Form} (h : findForm core w = some f)
    (hf : f = .lddY ∨ f = .lddZ ∨ f = .stdY ∨ f = .stdZ) : fieldQ w ≠ 0 := by
  intro hq
  have key (store y : BitVec 1) (g : Form) (hg : g ≠ f) (he : encDISP store y (fieldD w) (fieldQ w) = w)
      (hr : findForm core (encDISP store y (fieldD w) 0) = some g) : False := by
    rw [hq] at he
    rw [he, h] at hr
    exact hg (Option.some.inj hr).symm
  have hline := and_line h
  rcases hf with rfl | rfl | rfl | rfl
  · exact key 0 1 .ldY (by decide) (encDISP_fields (hline (by decide)) rfl rfl rfl rfl)
      (findForm_of_known (encDISP_known _ _ _ 0) rfl (fun _ => by decide) rfl)
  · exact key 0 0 .ldZ (by decide) (encDISP_fields (hline (by decide)) rfl rfl rfl rfl)
      (findForm_of_known (encDISP_known _ _ _ 0) rfl (fun _ => by decide) rfl)
  · exact key 1 1 .stY (by decide) (encDISP_fields (hline (by decide)) rfl rfl rfl rfl)
      (findForm_of_known (encDISP_known _ _ _ 0) rfl (fun _ => by decide) rfl)
  · exact key 1 0 .stZ (by decide) (encDISP_fields (hline (by decide)) rfl rfl rfl rfl)
      (findForm_of_known (encDISP_known _ _ _ 0) rfl (fun _ => by decide) rfl)

/-- The decoder answers canonical instructions only. -/
theorem buildInstr_canonical {core : Core} {w : Word} {f : Form} (w2 : Word) (h : findForm core w = some f) :
    (buildInstr f w w2).canonical = buildInstr f w w2 := by
  have hq := fieldQ_ne_zero h
  cases f with
  | lddY | lddZ | stdY | stdZ => exact if_neg (hq (by decide))
  | _ => rfl

/-- Settles O5: a decoding has read the one or two words that its instruction's fields were taken from, and those fields
put back are the words (`encode_buildInstr`). -/
theorem encodeOfDecode : Obligations.EncodeOfDecode := by
  intro c bytes i rest h
  obtain ⟨w, f, hf, ha, hr, ⟨ht, hb, rfl⟩ | ⟨ht, w2, hb, rfl⟩⟩ := decode_ok h
  · rw [encode_buildInstr 0 hf, ht, buildInstr_form]
    exact ⟨hb, buildInstr_wf f w 0, buildInstr_canonical 0 hf, ha, hr⟩
  · rw [encode_buildInstr w2 hf, ht, buildInstr_form]
    exact ⟨hb, buildInstr_wf f w w2, buildInstr_canonical w2 hf, ha, hr⟩

end Sys2Proof
end

section
/-! SUPPORT. What one instruction may change, over all instructions at once. `Tame l s t` says that the step from `s` to `t`
leaves the pc, the configuration, the platform's inputs and program memory, keeps SRAM in canonical form and mapped and SP
in its width, and changes no flag, SP or `irq_inhibit` that `l` does not list. Every operation is tame for the parts it
names; so is every instruction but SPM, up to its move of the pc (`exec_tame`). -/

namespace Sys2Proof.Machine

/-! ### Tame changes -/

/-- The part of a state that no instruction but SPM changes, the pc apart, and the pc. -/
def State.fixed (s : State) : PcWord × Config × Memory × List (Nat × Word) × Bool × Bool × Bool × Bool × List Nat :=
  (s.pc, s.cfg, s.prog, s.spmBuffer, s.lockBitSet, s.jtagenProgrammed, s.ocdenProgrammed, s.sleepEnabled, s.irqPending)

/-- SRAM is in canonical form, every byte of it is where DATA_MAP has SRAM, and SP is in its width: the clauses of the
invariant that writes of data touch. -/
structure DataInv (s : State) : Prop where
  canonical : Memory.wf dataBlank s.data = true
  mapped : ∀ e ∈ s.data, classify s.cfg e.1 = .sram e.1 ∨ classify s.cfg e.1 = .extSram e.1
  sp : s.sp.toNat < 2 ^ s.cfg.spBits.width

/-- A change of no more than registers, extension registers, SRAM, the platform's record, and the flags, SP and
`irq_inhibit` where listed. -/
structure Tame (l : List Part) (s t : State) : Prop where
  fixed : t.fixed = s.fixed
  flag : ∀ f, Part.flag f ∉ l → t.flag f = s.flag f
  sp : Part.sp ∉ l → t.sp = s.sp
  inhibit : Part.inhibit ∉ l → t.irqInhibit = s.irqInhibit
  inv : DataInv s → DataInv t

section
variable {l : List Part} {s t u : State}

theorem Tame.pc_eq (h : Tame l s t) : t.pc = s.pc := congrArg Prod.fst h.fixed

theorem Tame.cfg_eq (h : Tame l s t) : t.cfg = s.cfg := congrArg (fun x => x.2.1) h.fixed

theorem Tame.refl (l : List Part) (s : State) : Tame l s s :=
  ⟨rfl, fun _ _ => rfl, fun _ => rfl, fun _ => rfl, id⟩

theorem Tame.trans (h₁ : Tame l s t) (h₂ : Tame l t u) : Tame l s u :=
  ⟨h₂.fixed.trans h₁.fixed, fun f hf => (h₂.flag f hf).trans (h₁.flag f hf), fun h => (h₂.sp h).trans (h₁.sp h),
    fun h => (h₂.inhibit h).trans (h₁.inhibit h), fun h => h₂.inv (h₁.inv h)⟩

/-- A change of nothing that `Tame` looks at. -/
theorem Tame.of_eq (hfix : t.fixed = s.fixed) (hsreg : t.sreg = s.sreg) (hsp : t.sp = s.sp)
    (hinh : t.irqInhibit = s.irqInhibit) (hdata : t.data = s.data) : Tame l s t where
  fixed := hfix
  flag f _ := by rw [State.flag, hsreg]; rfl
  sp _ := hsp
  inhibit _ := hinh
  inv h := by
    have hc : t.cfg = s.cfg := congrArg (fun x => x.2.1) hfix
    obtain ⟨hcan, hmap, hspb⟩ := h
    exact ⟨hdata ▸ hcan, by rwa [hdata, hc], by rwa [hsp, hc]⟩

theorem Tame.setReg (r : Reg) (v : Byte) : Tame l s (s.setReg r v) := .of_eq rfl rfl rfl rfl rfl

theorem Tame.setPair (r : Reg) (v : Word) : Tame l s (s.setPair r v) := .of_eq rfl rfl rfl rfl rfl

theorem Tame.record (e : PlatformEvent) : Tame l s (s.record e) := .of_eq rfl rfl rfl rfl rfl

theorem Tame.countDraw : Tame l s s.countDraw := .of_eq rfl rfl rfl rfl rfl

theorem Tame.setRun (r : Run) : Tame l s (s.setRun r) := .of_eq rfl rfl rfl rfl rfl

theorem Tame.setRampD (v : Byte) : Tame l s (s.setRampD v) := .of_eq rfl rfl rfl rfl rfl

theorem Tame.setEind (v : Byte) : Tame l s (s.setEind v) := .of_eq rfl rfl rfl rfl rfl

theorem Tame.setRamp (p : Ptr) (v : Byte) : Tame l s (s.setRamp p v) := by
  cases p <;> exact .of_eq rfl rfl rfl rfl rfl

theorem Tame.setDesBlock (v : BitVec 128) : Tame l s (setDesBlock s v) := by
  refine .of_eq ?_ ?_ ?_ ?_ ?_ <;> simp only [Machine.setDesBlock, State.fixed]

/-- A new SREG is tame where the flags that differ are listed. -/
theorem Tame.setSreg {v : Byte} (h : ∀ f, Part.flag f ∉ l → getFlag v f = s.flag f) : Tame l s (s.setSreg v) where
  fixed := rfl
  flag := h
  sp _ := rfl
  inhibit _ := rfl
  inv h := ⟨h.canonical, h.mapped, h.sp⟩

theorem Tame.setInhibit (b : Bool) (h : Part.inhibit ∈ l) : Tame l s (s.setInhibit b) where
  fixed := rfl
  flag _ _ := rfl
  sp _ := rfl
  inhibit hn := absurd h hn
  inv h := ⟨h.canonical, h.mapped, h.sp⟩

theorem Tame.setSp {v : BitVec 16} (hl : Part.sp ∈ l)
    (hv : s.sp.toNat < 2 ^ s.cfg.spBits.width → v.toNat < 2 ^ s.cfg.spBits.width) : Tame l s (s.setSp v) where
  fixed := rfl
  flag _ _ := rfl
  sp hn := absurd hl hn
  inhibit _ := rfl
  inv h := ⟨h.canonical, h.mapped, hv h.sp⟩

theorem Tame.writeSreg (v : Byte) (hf : ∀ f, Part.flag f ∈ l) (hi : Part.inhibit ∈ l) : Tame l s (s.writeSreg v) where
  fixed := rfl
  flag f hn := absurd (hf f) hn
  sp _ := rfl
  inhibit hn := absurd hi hn
  inv h := ⟨h.canonical, h.mapped, h.sp⟩

theorem Tame.sramWrite {a : Nat} (v : Byte) (h : classify s.cfg a = .sram a ∨ classify s.cfg a = .extSram a) :
    Tame l s (sramWrite s a v) where
  fixed := rfl
  flag _ _ := rfl
  sp _ := rfl
  inhibit _ := rfl
  inv hs := by
    refine ⟨Memory.wf_write _ _ _ _ hs.canonical, fun e he => ?_, hs.sp⟩
    have he' : e ∈ Memory.write dataBlank s.data a v := he
    rcases Memory.mem_write _ _ _ _ e he' with rfl | he
    · exact h
    · exact hs.mapped e he

/-! ### The I/O space and the data space -/

/-- The parts that a write of a CPU register through its I/O location changes are listed. -/
def Allows (l : List Part) (x : IoTarget) : Prop :=
  match x with
  | .sreg => (∀ f, Part.flag f ∈ l) ∧ Part.inhibit ∈ l
  | .spl | .sph => Part.sp ∈ l
  | _ => True

theorem Tame.ioRead (A : BitVec 6) : Tame l s (ioRead A s).2 := by
  unfold Machine.ioRead
  cases ioTarget s.cfg A with
  | device => exact (Tame.record _).trans .countDraw
  | _ => exact .refl l s

/-- SPH is an I/O location only where SP has 16 bits (R70). -/
theorem spBits_of_ioTarget_sph {c : Config} {A : BitVec 6} (h : ioTarget c A = .sph) : c.spBits = .bits16 := by
  unfold ioTarget at h
  split_ifs at h with h1 h2 h3
  exact h3.2

theorem Tame.ioWrite {A : BitVec 6} (v : Byte) (h : Allows l (ioTarget s.cfg A)) : Tame l s (ioWrite A v s) := by
  unfold Machine.ioWrite
  cases hx : ioTarget s.cfg A with
  | sreg =>
    rw [hx] at h
    exact .writeSreg v h.1 h.2
  | spl =>
    rw [hx] at h
    refine .setSp h fun hs => ?_
    have hv := v.isLt
    rw [word_toNat, BitVec.extractLsb'_toNat, Nat.shiftRight_eq_div_pow]
    cases hb : s.cfg.spBits <;> simp only [hb, SpBits.width, Nat.reducePow] at hs ⊢ <;> omega
  | sph =>
    rw [hx] at h
    refine .setSp h fun _ => ?_
    rw [spBits_of_ioTarget_sph hx]
    exact BitVec.isLt _
  | ramp p => exact .setRamp p v
  | rampD => exact .setRampD v
  | eind => exact .setEind v
  | device => exact .record _

theorem Tame.ioPutBit {A : BitVec 6} (b : Fin 8) (set : Bool) (h : Allows l (ioTarget s.cfg A)) :
    Tame l s (ioPutBit A b set s) := by
  unfold Machine.ioPutBit
  split
  · exact .record _
  · have hr : Tame l s (Machine.ioRead A s).2 := .ioRead A
    exact hr.trans (.ioWrite _ (hr.cfg_eq ▸ h))

/-- A read changes no more than the record of the devices. -/
theorem Tame.memRead {a : Nat} {v : Byte} (h : memRead a s = .ok (v, t)) : Tame l s t := by
  have pure {e : Except Fault Byte} (he : (e.map fun v => (v, s)) = .ok (v, t)) : Tame l s t := by
    cases e <;> cases he
    exact .refl l s
  unfold Machine.memRead at h
  split at h
  · cases h
    exact .refl l s
  next A _ =>
    have ht : (Machine.ioRead A s).2 = t := congrArg Prod.snd (Except.ok.inj h)
    exact ht ▸ .ioRead A
  next b _ =>
    have ht : (devRead (.ext b) s).2 = t := congrArg Prod.snd (Except.ok.inj h)
    exact ht ▸ (Tame.record _).trans .countDraw
  · exact pure h
  · exact pure h
  · exact pure h
  · cases h

/-- A store changes what stands at its address: a CPU register only at an I/O location, and SRAM only where there is some. -/
theorem Tame.memWrite {a : Nat} {v : Byte} (h : memWrite a v s = .ok t)
    (hl : ∀ A, classify s.cfg a = .io A → Allows l (ioTarget s.cfg A)) : Tame l s t := by
  unfold Machine.memWrite at h
  split at h
  · cases h
    exact .setReg _ _
  next A hA =>
    cases h
    exact .ioWrite v (hl A hA)
  · cases h
    exact .record _
  next b hb =>
    cases h
    exact .sramWrite v (.inl (classify_sram hb ▸ hb))
  next b hb =>
    cases h
    exact .sramWrite v (.inr (classify_extSram hb ▸ hb))
  · cases h
  · cases h

end

end Sys2Proof.Machine
end

section
/-! SUPPORT. The operations over the data space, the stack and the pointers are tame, and so is every instruction but SPM,
up to its move of the pc. -/

namespace Sys2Proof.Machine

section
variable {l : List Part} {s t u : State}

/-! ### Loads, stores and pointers -/

theorem Tame.loadAt {d : Reg} {a : Addr24} (h : loadAt d a s = .ok t) : Tame l s t := by
  unfold Machine.loadAt at h
  split at h
  next v u hu =>
    cases h
    exact (Tame.memRead hu).trans (.setReg d v)
  · cases h

theorem Tame.ptrSet (p : Ptr) (v : Addr24) : Tame l s (ptrSet p v s) := by
  unfold Machine.ptrSet
  split
  · exact .setReg _ _
  · exact (Tame.setReg _ _).trans (.setReg _ _)
  · exact ((Tame.setReg _ _).trans (.setReg _ _)).trans (.setRamp _ _)

theorem Tame.loadPostInc {p : Ptr} {d : Reg} (h : loadPostInc p d s = .ok t) : Tame l s t := by
  unfold Machine.loadPostInc at h
  split at h
  · cases h
  · dsimp only at h
    split at h
    next u hu =>
      cases h
      exact (Tame.loadAt hu).trans (.ptrSet p _)
    · cases h

theorem Tame.loadPreDec {p : Ptr} {d : Reg} (h : loadPreDec p d s = .ok t) : Tame l s t := by
  unfold Machine.loadPreDec at h
  split at h
  · cases h
  · exact (Tame.ptrSet p _).trans (.loadAt h)

theorem Tame.loadProg {d : Reg} {b : Nat} (h : loadProg d b s = .ok t) : Tame l s t := by
  unfold Machine.loadProg at h
  split at h
  · cases h
    exact .setReg d _
  · cases h

theorem Tame.setRampZZ (v : Addr24) : Tame l s (setRampZZ v s) := by
  unfold Machine.setRampZZ
  dsimp only
  split
  · exact (Tame.setPair 30 _).trans (.setRamp _ _)
  · exact .setPair 30 _

/-- What a store at a data address may write is listed. -/
def AllowsStore (l : List Part) (c : Config) (a : Nat) : Prop :=
  ∀ A, classify c a = .io A → Allows l (ioTarget c A)

theorem Tame.storePostInc {p : Ptr} {r : Reg} (h : storePostInc p r s = .ok t)
    (hl : AllowsStore l s.cfg (ptrGet p s).toNat) : Tame l s t := by
  unfold Machine.storePostInc at h
  split at h
  · cases h
  · dsimp only at h
    split at h
    next u hu =>
      cases h
      exact (Tame.memWrite hu hl).trans (.ptrSet p _)
    · cases h

theorem Tame.storePreDec {p : Ptr} {r : Reg} (h : storePreDec p r s = .ok t)
    (hl : AllowsStore l s.cfg (ptrAdd p (-1) s).toNat) : Tame l s t := by
  unfold Machine.storePreDec at h
  split at h
  · cases h
  · have hp : Tame l s (Machine.ptrSet p (ptrAdd p (-1) s) s) := .ptrSet p _
    exact hp.trans (.memWrite h (hp.cfg_eq ▸ hl))

theorem Tame.rmw {only : Bool} {f : Byte → Byte → Byte} {d : Reg} (h : rmw only f d s = .ok t)
    (hl : AllowsStore l s.cfg (ptrGet .Z s).toNat) : Tame l s t := by
  unfold Machine.rmw at h
  dsimp only at h
  split at h
  · cases h
  · split at h
    · cases h
    next m u hu =>
      have hr : Tame l s u := .memRead hu
      split at h
      · cases h
      next w hw =>
        cases h
        exact (hr.trans (.memWrite hw (hr.cfg_eq ▸ hl))).trans (.setReg d m)

/-! ### The stack -/

theorem Tame.push8 {v : Byte} (hsp : Part.sp ∈ l) (h : push8 v s = .ok t) (hl : AllowsStore l s.cfg (pushSlot s 0)) :
    Tame l s t ∧ t.sp.toNat = pushSlot s 1 := by
  have hdec := spDec_toNat s.cfg s.sp
  unfold Machine.push8 at h
  split at h
  next u hu =>
    cases h
    have hw : Tame l s u := .memWrite hu hl
    refine ⟨hw.trans (.setSp hsp fun _ => ?_), hdec⟩
    rw [hdec, hw.cfg_eq]
    exact Nat.mod_lt _ (Nat.two_pow_pos _)
  · cases h

theorem Tame.pop8 {v : Byte} (hsp : Part.sp ∈ l) (h : pop8 s = .ok (v, t)) : Tame l s t := by
  refine (Tame.setSp hsp fun _ => ?_).trans (.memRead h)
  rw [spInc_toNat]
  exact Nat.mod_lt _ (Nat.two_pow_pos _)

theorem Tame.pushPc {v : PcWord} (hsp : Part.sp ∈ l) (h : pushPc v s = .ok t)
    (hl : ∀ j < retBytes s.cfg, AllowsStore l s.cfg (pushSlot s j)) : Tame l s t := by
  have two_le : 2 ≤ retBytes s.cfg := by
    unfold retBytes
    split <;> decide
  unfold Machine.pushPc at h
  split at h
  · cases h
  next u1 h1 =>
    obtain ⟨t1, sp1⟩ := Tame.push8 hsp h1 (hl 0 (by omega))
    have slot1 := pushSlot_pushed s u1 t1.cfg_eq sp1
    split at h
    · cases h
    next u2 h2 =>
      obtain ⟨t2, sp2⟩ := Tame.push8 hsp h2 (by rw [slot1, t1.cfg_eq]; exact hl 1 (by omega))
      have slot2 := pushSlot_pushed u1 u2 t2.cfg_eq sp2
      have t12 : Tame l s u2 := t1.trans t2
      split at h
      · cases h
        exact t12
      next h22 =>
        have three : 2 < retBytes s.cfg := by simp [retBytes, h22]
        exact t12.trans (Tame.push8 hsp h (by rw [slot2, slot1, t12.cfg_eq]; exact hl 2 three)).1

theorem Tame.popPcLow {hi : BitVec 6} {v : PcWord} (hsp : Part.sp ∈ l) (h : popPcLow hi s = .ok (v, t)) :
    Tame l s t ∧ (hi = 0 → v.toNat < 2 ^ 16) := by
  unfold Machine.popPcLow at h
  split at h
  · cases h
  next mid u1 h1 =>
    split at h
    · cases h
    next lo u2 h2 =>
      cases h
      refine ⟨(Tame.pop8 hsp h1).trans (.pop8 hsp h2), fun hz => ?_⟩
      subst hz
      have hm := mid.isLt
      have hlo := lo.isLt
      have h0 : (0 : BitVec 6).toNat = 0 := rfl
      rw [pc3_toNat, h0]
      omega

/-- A popped pc is in the width of the pc (R79). -/
theorem Tame.popPc {v : PcWord} (hsp : Part.sp ∈ l) (h : popPc s = .ok (v, t)) :
    Tame l s t ∧ v.toNat < 2 ^ s.cfg.pcBits.width := by
  unfold Machine.popPc at h
  split at h
  next hb =>
    obtain ⟨ht, hv⟩ := Tame.popPcLow hsp h
    exact ⟨ht, by rw [hb]; exact hv rfl⟩
  next hb =>
    split at h
    · cases h
    next x u hu =>
      exact ⟨(Tame.pop8 hsp hu).trans (Tame.popPcLow hsp h).1, by rw [hb]; exact v.isLt⟩

end

/-! ### The pc stays in its width -/

theorem wrapWidth_le (c : Config) : wrapWidth c ≤ c.pcBits.width := by
  unfold wrapWidth
  split
  · exact le_rfl
  · exact min_le_right _ _

theorem pcAdd_lt (c : Config) (pc : PcWord) (offset : Int) : (pcAdd c pc offset).toNat < 2 ^ c.pcBits.width := by
  have hpos : (0 : Int) < ((2 ^ wrapWidth c : Nat) : Int) := by exact_mod_cast Nat.two_pow_pos _
  have hlt := Int.emod_lt_of_pos (pc.toNat + offset) hpos
  rw [← pcAdd_toNat] at hlt
  exact (Int.ofNat_lt.1 hlt).trans_le (Nat.pow_le_pow_right (by decide) (wrapWidth_le c))

theorem pcTrunc_toNat (c : Config) (v : PcWord) : (pcTrunc c v).toNat = v.toNat % 2 ^ c.pcBits.width := by
  have hle : v.toNat % 2 ^ c.pcBits.width ≤ v.toNat := Nat.mod_le _ _
  rw [pcTrunc, BitVec.toNat_ofNat]
  exact Nat.mod_eq_of_lt (hle.trans_lt v.isLt)

theorem pcTrunc_lt (c : Config) (v : PcWord) : (pcTrunc c v).toNat < 2 ^ c.pcBits.width := by
  rw [pcTrunc_toNat]
  exact Nat.mod_lt _ (Nat.two_pow_pos _)

/-- The pc has at least 16 bits, so Z fits. -/
theorem word_lt_pcBits (c : Config) (w : Word) : (w.setWidth 22 : PcWord).toNat < 2 ^ c.pcBits.width := by
  have hw := w.isLt
  have h16 : 16 ≤ c.pcBits.width := by cases c.pcBits <;> decide
  have hle : w.toNat % 2 ^ 22 ≤ w.toNat := Nat.mod_le _ _
  rw [BitVec.toNat_setWidth]
  exact (hle.trans_lt hw).trans_le (Nat.pow_le_pow_right (by decide) h16)

/-! ### The parts an instruction may write -/

/-- The flags, SP and `irq_inhibit`, as far as the tables of Safety.lean let an instruction write them. -/
def writtenParts (i : Instr) (s : State) : List Part :=
  (instrFlags i).map .flag ++ (if usesSp i then [.sp] else []) ++ (if delaysIrq i then [.inhibit] else []) ++
    (if storesTo i s .sreg then .inhibit :: allFlags else []) ++
    (if storesTo i s .spl || storesTo i s .sph then [.sp] else [])

section
variable {i : Instr} {s : State}

theorem mem_allFlags (f : Flag) : Part.flag f ∈ allFlags := by cases f <;> decide

theorem flag_notMem_writtenParts {f : Flag} (hs : storesTo i s .sreg = false) (hf : f ∉ instrFlags i) :
    Part.flag f ∉ writtenParts i s := by
  simp only [writtenParts, hs, List.mem_append, List.mem_map, Part.flag.injEq, exists_eq_right, hf, false_or,
    Bool.false_eq_true, if_false, List.not_mem_nil, or_false]
  split_ifs <;> simp

theorem sp_notMem_writtenParts (hu : usesSp i = false) (hl : storesTo i s .spl = false)
    (hh : storesTo i s .sph = false) : Part.sp ∉ writtenParts i s := by
  simp only [writtenParts, hu, hl, hh, List.mem_append, List.mem_map, reduceCtorEq, and_false, exists_false, false_or,
    Bool.or_self, Bool.false_eq_true, if_false, List.not_mem_nil, or_false]
  split_ifs <;> simp [allFlags, flagsHSVNZC, flagsSVNZC, flagsSVNZ]

theorem inhibit_notMem_writtenParts (hd : delaysIrq i = false) (hs : storesTo i s .sreg = false) :
    Part.inhibit ∉ writtenParts i s := by
  simp only [writtenParts, hd, hs, List.mem_append, List.mem_map, reduceCtorEq, and_false, exists_false, false_or,
    Bool.false_eq_true, if_false, List.not_mem_nil, or_false]
  split_ifs <;> simp

theorem flag_mem_writtenParts {f : Flag} (hf : f ∈ instrFlags i) : Part.flag f ∈ writtenParts i s := by
  simp [writtenParts, hf]

theorem sp_mem_writtenParts (hu : usesSp i = true) : Part.sp ∈ writtenParts i s := by
  simp [writtenParts, hu]

theorem inhibit_mem_writtenParts (hd : delaysIrq i = true) : Part.inhibit ∈ writtenParts i s := by
  simp [writtenParts, hd]

/-- What stands at a location the instruction stores to may be written. -/
theorem allows_storeLocation {A : BitVec 6} (hA : A ∈ storeLocations i s) :
    Allows (writtenParts i s) (ioTarget s.cfg A) := by
  have stores {x : IoTarget} (hx : ioTarget s.cfg A = x) : storesTo i s x = true :=
    List.any_eq_true.2 ⟨A, hA, beq_iff_eq.2 hx⟩
  cases hx : ioTarget s.cfg A with
  | sreg => exact ⟨fun f => by simp [writtenParts, stores hx, mem_allFlags], by simp [writtenParts, stores hx]⟩
  | spl => simp [Allows, writtenParts, stores hx]
  | sph => simp [Allows, writtenParts, stores hx]
  | _ => trivial

/-- The I/O locations among some data addresses. -/
def ioAmong (c : Config) (addrs : List Nat) : List (BitVec 6) :=
  addrs.filterMap fun a =>
    match classify c a with
    | .io A => some A
    | _ => none

/-- So may what stands at a data address the instruction stores to. -/
theorem allowsStore_storeAddr {a : Nat} (ha : a ∈ storeAddrs i s)
    (hi : storeLocations i s = ioAmong s.cfg (storeAddrs i s)) : AllowsStore (writtenParts i s) s.cfg a := fun A hA =>
  allows_storeLocation (by
    rw [hi]
    exact List.mem_filterMap.2 ⟨a, ha, by rw [hA]⟩)

/-- A new SREG whose other flags the instruction leaves. -/
theorem Tame.setFlags {v : Byte} (h : ∀ f ∉ instrFlags i, getFlag v f = getFlag s.sreg f) :
    Tame (writtenParts i s) s (s.setSreg v) :=
  .setSreg fun f hf => h f fun hm => hf (flag_mem_writtenParts hm)

theorem Tame.putHSVNZC (hi : instrFlags i = [.H, .S, .V, .N, .Z, .C]) (h v n z c : Bool) :
    Tame (writtenParts i s) s (s.setSreg (putHSVNZC s.sreg h v n z c)) :=
  .setFlags fun f hf => by
    rw [hi] at hf
    rw [getFlag_putHSVNZC]
    cases f <;> simp at hf ⊢

theorem Tame.putSVNZC (hi : instrFlags i = [.S, .V, .N, .Z, .C]) (v n z c : Bool) :
    Tame (writtenParts i s) s (s.setSreg (putSVNZC s.sreg v n z c)) :=
  .setFlags fun f hf => by
    rw [hi] at hf
    rw [getFlag_putSVNZC]
    cases f <;> simp at hf ⊢

theorem Tame.putSVNZ (hi : instrFlags i = [.S, .V, .N, .Z]) (v n z : Bool) :
    Tame (writtenParts i s) s (s.setSreg (putSVNZ s.sreg v n z)) :=
  .setFlags fun f hf => by
    rw [hi] at hf
    rw [getFlag_putSVNZ]
    cases f <;> simp at hf ⊢

theorem Tame.putFlag {f : Flag} (hf : f ∈ instrFlags i) (b : Bool) :
    Tame (writtenParts i s) s (s.setSreg (putFlag s.sreg f b)) :=
  .setFlags fun g hg => by
    have hne : g ≠ f := fun h => hg (h ▸ hf)
    rw [getFlag_putFlag, if_neg hne]

theorem Tame.mulSreg (hi : instrFlags i = [.Z, .C]) (p r : Word) :
    Tame (writtenParts i s) s (s.setSreg (mulSreg s.sreg p r)) :=
  .setFlags fun f hf => by
    rw [hi] at hf
    cases f <;> simp [Machine.mulSreg] at hf ⊢

end

end Sys2Proof.Machine
end

section
/-! SUPPORT. One case analysis over all instructions but SPM: what they do is tame for the parts that the tables of Safety.lean
list, and then the pc moves, within its width and by one word but where `movesPc` says. The statements over every
instruction and every step follow from it. -/

namespace Sys2Proof.Machine

/-- A run of `i` from `s` to `t`: a tame change, then a move of the pc. -/
def Runs (i : Instr) (s t : State) : Prop :=
  ∃ u v, Tame (writtenParts i s) s u ∧ t = u.setPc v ∧ v.toNat < 2 ^ s.cfg.pcBits.width ∧
    (movesPc i = false → v = pcAdd s.cfg s.pc 1)

section
variable {i : Instr} {s t u : State}

theorem Runs.jump (hm : movesPc i = true) (h : Tame (writtenParts i s) s u) {v : PcWord}
    (hv : v.toNat < 2 ^ s.cfg.pcBits.width) : Runs i s (u.setPc v) :=
  ⟨u, v, h, rfl, hv, fun hf => absurd hm (by simp [hf])⟩

theorem Runs.oneWord (h : Tame (writtenParts i s) s u) : Runs i s (u.advance 1) :=
  ⟨u, pcAdd s.cfg s.pc 1, h, by rw [State.advance, h.cfg_eq, h.pc_eq]; rfl, pcAdd_lt _ _ _, fun _ => rfl⟩

/-- Two-word instructions and skips. -/
theorem Runs.words (hm : movesPc i = true) (h : Tame (writtenParts i s) s u) (n : Nat) : Runs i s (u.advance n) :=
  .jump hm h (h.cfg_eq ▸ pcAdd_lt u.cfg u.pc n)

theorem Runs.transfer {x : Except Fault State} (ht : transfer x = .next t)
    (h : ∀ u, x = .ok u → Tame (writtenParts i s) s u) : Runs i s t := by
  obtain ⟨u, hu, rfl⟩ := transfer_eq_next.1 ht
  exact .oneWord (h u hu)

theorem Runs.transfer2 (hm : movesPc i = true) {x : Except Fault State} (ht : transfer2 x = .next t)
    (h : ∀ u, x = .ok u → Tame (writtenParts i s) s u) : Runs i s t := by
  obtain ⟨u, hu, rfl⟩ := transfer2_eq_next.1 ht
  exact .words hm (h u hu) 2

theorem Runs.branch (hm : movesPc i = true) (c : Bool) (k : Int) : Runs i s (s.branch c k) :=
  .jump hm (.refl _ s) (pcAdd_lt _ _ _)

theorem Runs.skip (hm : movesPc i = true) (h : Tame (writtenParts i s) s u) {c : Bool}
    (ht : finish (skip c u) = .next t) : Runs i s t := by
  have hs := finish_eq_next.1 ht
  unfold Machine.skip at hs
  split_ifs at hs <;> cases hs <;> exact .words hm h _

theorem Runs.call (hm : movesPc i = true) (hu : usesSp i = true) {ret target : PcWord}
    (hl : ∀ j < retBytes s.cfg, AllowsStore (writtenParts i s) s.cfg (pushSlot s j))
    (hv : target.toNat < 2 ^ s.cfg.pcBits.width) (ht : finish (call ret target s) = .next t) : Runs i s t := by
  have hc := finish_eq_next.1 ht
  unfold Machine.call at hc
  split at hc
  next u h =>
    cases hc
    exact .jump hm (.pushPc (sp_mem_writtenParts hu) h hl) hv
  · cases hc

/-- The addresses of the bytes a call pushes are among those it stores to. -/
theorem allowsStore_pushSlot (ha : storeAddrs i s = (List.range (retBytes s.cfg)).map (pushSlot s))
    (hi : storeLocations i s = ioAmong s.cfg (storeAddrs i s)) :
    ∀ j < retBytes s.cfg, AllowsStore (writtenParts i s) s.cfg (pushSlot s j) := fun j hj =>
  allowsStore_storeAddr (by
    rw [ha]
    exact List.mem_map_of_mem (List.mem_range.2 hj)) hi

theorem Runs.ret (ht : finish (return_ s) = .next t) : Runs .ret s t := by
  have hr := finish_eq_next.1 ht
  unfold return_ at hr
  split at hr
  next v u h =>
    cases hr
    obtain ⟨hu, hv⟩ := Tame.popPc (l := writtenParts .ret s) (sp_mem_writtenParts rfl) h
    exact .jump rfl hu hv
  · cases hr

theorem Runs.reti (ht : finish (interruptReturn s) = .next t) : Runs .reti s t := by
  have hr := finish_eq_next.1 ht
  unfold interruptReturn at hr
  split at hr
  · cases hr
  next v u h =>
    obtain ⟨hu, hv⟩ := Tame.popPc (l := writtenParts .reti s) (sp_mem_writtenParts rfl) h
    have hinh : Part.inhibit ∈ writtenParts .reti s := inhibit_mem_writtenParts rfl
    cases hr
    split_ifs
    · exact .jump rfl ((hu.trans (.record .irqReturn)).trans (.setInhibit true hinh)) hv
    · have hI : Part.flag .I ∈ writtenParts .reti s := flag_mem_writtenParts (by decide)
      have hf : Tame (writtenParts .reti s) u (u.setSreg (putFlag u.sreg .I true)) := .setSreg fun f hf => by
        have hne : f ≠ .I := fun e => hf (e ▸ hI)
        rw [getFlag_putFlag, if_neg hne]
        rfl
      exact .jump rfl ((hu.trans hf).trans (.setInhibit true hinh)) hv

/-- BSET and BCLR write the flag whose bit they name (R331, R332). -/
theorem Tame.putBit {b : Fin 8} (hi : instrFlags i = [Flag.C, .Z, .N, .V, .S, .H, .T, .I].filter fun f => f.bit == b.val)
    (v : Bool) : Tame (writtenParts i s) s (s.setSreg (putBit s.sreg b.val v)) :=
  .setFlags fun f hf => by
    have hall : f ∈ [Flag.C, .Z, .N, .V, .S, .H, .T, .I] := by cases f <;> simp
    have hb : f.bit ≠ b.val := fun e => hf (hi ▸ List.mem_filter.2 ⟨hall, beq_iff_eq.2 e⟩)
    rw [getFlag, getLsbD_putBit _ _ _ _ b.isLt, if_neg hb]
    rfl

theorem Runs.bset (b : Fin 8) (ht : execBset b s = .next t) : Runs (.bset b) s t := by
  obtain rfl := Host.Outcome.next.inj ht
  have hb : Tame (writtenParts (.bset b) s) s (s.setSreg (Machine.putBit s.sreg b.val true)) := .putBit rfl true
  split_ifs with h7
  · exact .oneWord (hb.trans (.setInhibit true (inhibit_mem_writtenParts (by simp [delaysIrq, h7]))))
  · exact .oneWord hb

/-- A transfer whose operation is another one and then a tame change. -/
theorem Runs.transferMap {α : Type} {x : Except Fault α} {f : α → State} (ht : Machine.transfer (x.map f) = .next t)
    (h : ∀ y, x = .ok y → Tame (writtenParts i s) s (f y)) : Runs i s t :=
  .transfer ht fun u hu => by
    cases x with
    | ok y =>
      cases hu
      exact h y rfl
    | error e => cases hu

theorem Runs.postIncProg {d : Reg} {f : State → State} {b : Nat}
    (ht : (if isPtrHalf .Z d then .fault .undefinedCombination
      else Machine.transfer ((loadProg d b s).map f)) = Host.Outcome.next t)
    (hf : ∀ u, Tame (writtenParts i s) u (f u)) : Runs i s t := by
  split_ifs at ht
  exact .transferMap ht fun u hu => (Tame.loadProg hu).trans (hf u)

/-- SLEEP and BREAK move the pc, and change `run` or not. -/
theorem Runs.control {c : Prop} [Decidable c] {r : Run}
    (ht : Host.Outcome.next (if c then (s.advance 1).setRun r else s.advance 1) = (.next t : Result)) : Runs i s t := by
  obtain rfl := Host.Outcome.next.inj ht
  split_ifs
  · exact .oneWord (.setRun r)
  · exact .oneWord (.refl _ s)

end

/-- Every instruction but SPM. -/
theorem exec_runs {i : Instr} {s t : State} (h : exec i s = .next t) (h1 : i ≠ .spm) (h2 : i ≠ .spmInc) :
    Runs i s t := by
  cases i with
  | spm => exact absurd rfl h1
  | spmInc => exact absurd rfl h2
  | add | adc | sub | subi | sbc | sbci | neg | lsl | rol =>
    obtain rfl := Host.Outcome.next.inj h
    exact .oneWord ((Tame.putHSVNZC rfl _ _ _ _ _).trans (.setReg _ _))
  | cp | cpc | cpi =>
    obtain rfl := Host.Outcome.next.inj h
    exact .oneWord (Tame.putHSVNZC rfl _ _ _ _ _)
  | adiw | sbiw =>
    obtain rfl := Host.Outcome.next.inj h
    exact .oneWord ((Tame.putSVNZC rfl _ _ _ _).trans (.setPair _ _))
  | com | lsr | ror | asr =>
    obtain rfl := Host.Outcome.next.inj h
    exact .oneWord ((Tame.putSVNZC rfl _ _ _ _).trans (.setReg _ _))
  | and | andi | or | ori | eor | sbr | cbr | inc | dec | clr =>
    obtain rfl := Host.Outcome.next.inj h
    exact .oneWord ((Tame.putSVNZ rfl _ _ _).trans (.setReg _ _))
  | tst =>
    obtain rfl := Host.Outcome.next.inj h
    exact .oneWord (Tame.putSVNZ rfl _ _ _)
  | mul | muls | mulsu | fmul | fmuls | fmulsu =>
    obtain rfl := Host.Outcome.next.inj h
    exact .oneWord ((Tame.mulSreg rfl _ _).trans (.setPair _ _))
  | ser | mov | ldi | swap | bld =>
    obtain rfl := Host.Outcome.next.inj h
    exact .oneWord (Tame.setReg _ _)
  | movw =>
    obtain rfl := Host.Outcome.next.inj h
    exact .oneWord (Tame.setPair _ _)
  | des K =>
    change (if s.cfg.hasDesRound then _ else _) = _ at h
    split_ifs at h
    obtain rfl := Host.Outcome.next.inj h
    exact .oneWord (Tame.setDesBlock _)
  | sec | clc | sez | clz | sen | cln | sev | clv | ses | cls | seh | clh | set | clt | cli | bst =>
    obtain rfl := Host.Outcome.next.inj h
    exact .oneWord (Tame.putFlag (List.mem_singleton_self _) _)
  | sei =>
    obtain rfl := Host.Outcome.next.inj h
    exact .oneWord ((Tame.putFlag (List.mem_singleton_self _) _).trans (.setInhibit true (inhibit_mem_writtenParts rfl)))
  | bset b => exact .bset b h
  | bclr b =>
    obtain rfl := Host.Outcome.next.inj h
    exact .oneWord (Tame.putBit rfl false)
  | rjmp =>
    obtain rfl := Host.Outcome.next.inj h
    exact .jump rfl (.refl _ s) (pcAdd_lt _ _ _)
  | ijmp =>
    obtain rfl := Host.Outcome.next.inj h
    exact .jump rfl (.refl _ s) (word_lt_pcBits _ _)
  | eijmp | jmp =>
    obtain rfl := Host.Outcome.next.inj h
    exact .jump rfl (.refl _ s) (pcTrunc_lt _ _)
  | rcall k => exact .call rfl rfl (allowsStore_pushSlot rfl rfl) (pcAdd_lt _ _ _) h
  | icall => exact .call rfl rfl (allowsStore_pushSlot rfl rfl) (word_lt_pcBits _ _) h
  | eicall => exact .call rfl rfl (allowsStore_pushSlot rfl rfl) (pcTrunc_lt _ _) h
  | call k => exact .call rfl rfl (allowsStore_pushSlot rfl rfl) (pcTrunc_lt _ _) h
  | ret => exact .ret h
  | reti => exact .reti h
  | cpse | sbrc | sbrs => exact .skip rfl (.refl _ s) h
  | sbic | sbis => exact .skip rfl (.ioRead _) h
  | brbs | brbc | breq | brne | brcs | brcc | brsh | brlo | brmi | brpl | brge | brlt | brhs | brhc | brts | brtc | brvs
  | brvc | brie | brid =>
    obtain rfl := Host.Outcome.next.inj h
    exact .branch rfl _ _
  | lds => exact .transfer2 rfl h fun u hu => .loadAt hu
  | lds16 | ldX | ldY | ldZ | lddY | lddZ => exact .transfer h fun u hu => .loadAt hu
  | ldXInc | ldYInc | ldZInc => exact .transfer h fun u hu => .loadPostInc hu
  | ldXDec | ldYDec | ldZDec => exact .transfer h fun u hu => .loadPreDec hu
  | sts => exact .transfer2 rfl h fun u hu => .memWrite hu (allowsStore_storeAddr (List.mem_singleton_self _) rfl)
  | sts16 | stX | stY | stZ | stdY | stdZ =>
    exact .transfer h fun u hu => .memWrite hu (allowsStore_storeAddr (List.mem_singleton_self _) rfl)
  | stXInc | stYInc | stZInc =>
    exact .transfer h fun u hu => .storePostInc hu (allowsStore_storeAddr (List.mem_singleton_self _) rfl)
  | stXDec | stYDec | stZDec =>
    exact .transfer h fun u hu => .storePreDec hu (allowsStore_storeAddr (List.mem_singleton_self _) rfl)
  | lpmR0 | lpm | elpmR0 | elpm => exact .transfer h fun u hu => .loadProg hu
  | lpmInc => exact .postIncProg h fun u => .setPair 30 _
  | elpmInc => exact .postIncProg h fun u => .setRampZZ _
  | inIo d A =>
    obtain rfl := Host.Outcome.next.inj h
    exact .oneWord ((Tame.ioRead A).trans (.setReg _ _))
  | outIo A r =>
    obtain rfl := Host.Outcome.next.inj h
    exact .oneWord (.ioWrite _ (allows_storeLocation (List.mem_singleton_self _)))
  | sbi | cbi =>
    obtain rfl := Host.Outcome.next.inj h
    exact .oneWord (.ioPutBit _ _ (allows_storeLocation (List.mem_singleton_self _)))
  | push r =>
    exact .transfer h fun u hu =>
      (Tame.push8 (sp_mem_writtenParts rfl) hu (allowsStore_storeAddr (List.mem_singleton_self _) rfl)).1
  | pop =>
    exact .transferMap h fun x hx => (Tame.pop8 (sp_mem_writtenParts rfl) hx).trans (.setReg _ _)
  | xch | las | lac | lat =>
    exact .transfer h fun u hu => .rmw hu (allowsStore_storeAddr (List.mem_singleton_self _) rfl)
  | nop =>
    obtain rfl := Host.Outcome.next.inj h
    exact .oneWord (.refl _ s)
  | wdr =>
    obtain rfl := Host.Outcome.next.inj h
    exact .oneWord (.record _)
  | sleep | brk => exact .control h

end Sys2Proof.Machine
end

section
/-! SUPPORT. Every instruction and every step: the flags, SP, the pc and the platform's state change only as listed, and the
invariant is kept. SPM and the entry of an interrupt, which change what no other step does, are stated beside `exec_runs`. -/

namespace Sys2Proof.Machine

/-! ### SPM -/

/-- SPM and SPM Z+ run `SpmEffect`, write at most Z after it, and move one word on (R289, R290). -/
theorem exec_spm {i : Instr} {s t : State} (hi : i = .spm ∨ i = .spmInc) (h : exec i s = .next t) :
    ∃ u, Tame [] (spmEffect s) u ∧ t = u.advance 1 := by
  rcases hi with rfl | rfl
  · change (if s.cfg.hasSpmEffect then _ else _) = _ at h
    split_ifs at h
    obtain rfl := Host.Outcome.next.inj h
    exact ⟨_, .refl _ _, rfl⟩
  · change (if s.cfg.hasSpmEffect then _ else _) = _ at h
    split_ifs at h
    obtain rfl := Host.Outcome.next.inj h
    exact ⟨_, .setPair 30 _, rfl⟩

/-- Every instruction runs in the sense of `exec_runs`, but that SPM starts from its effect. -/
theorem exec_cases {i : Instr} {s t : State} (h : exec i s = .next t) :
    Runs i s t ∨ (i = .spm ∨ i = .spmInc) ∧ ∃ u, Tame [] (spmEffect s) u ∧ t = u.advance 1 := by
  by_cases hi : i = .spm ∨ i = .spmInc
  · exact .inr ⟨hi, exec_spm hi h⟩
  · obtain ⟨h1, h2⟩ := not_or.1 hi
    exact .inl (exec_runs h h1 h2)

/-! ### Flags, SP and the pc -/

/-- RETI on AVRxm tells the platform instead of setting I (R203). -/
theorem flag_reti_avrxm {s t : State} (hc : s.cfg.core = .AVRxm) (h : exec .reti s = .next t) (f : Flag) :
    t.flag f = s.flag f := by
  have hr := finish_eq_next.1 h
  unfold interruptReturn at hr
  split at hr
  · cases hr
  next v u hu =>
    obtain ⟨ht, -⟩ := Tame.popPc (l := [.sp]) (List.mem_singleton_self _) hu
    rw [if_pos hc] at hr
    cases hr
    exact ht.flag f (by simp)

/-- Settles O56: what an instruction runs is tame for the parts the table lists (`exec_runs`); `SpmEffect` writes no flag. -/
theorem flagsWrittenOnlyAsListed : Obligations.FlagsWrittenOnlyAsListed := by
  intro i s t f h hstore hf
  rcases hf with hf | ⟨rfl, hcore⟩
  · rcases exec_cases h with ⟨u, v, hu, rfl, -, -⟩ | ⟨-, u, hu, rfl⟩
    · exact hu.flag f (flag_notMem_writtenParts hstore hf)
    · exact hu.flag f List.not_mem_nil
  · exact flag_reti_avrxm hcore h f

/-- Settles O57: SP is a part that `exec_runs` lists, and the pc moves as it says. -/
theorem spAndPcChangedOnlyAsListed : Obligations.SpAndPcChangedOnlyAsListed := by
  intro i s t h
  rcases exec_cases h with ⟨u, v, hu, rfl, -, hpc⟩ | ⟨-, u, hu, rfl⟩
  · refine ⟨fun huse hl hh => hu.sp (sp_notMem_writtenParts huse hl hh), fun hm => ?_⟩
    rw [hpc hm]
    exact pcAdd_toNat s.cfg s.pc 1
  · exact ⟨fun _ _ _ => hu.sp List.not_mem_nil, fun _ => .of_eq hu.cfg_eq hu.pc_eq (.advance u 1)⟩

/-! ### The delay of interrupts -/

theorem interruptTaken_of_inhibit {s : State} (h : s.irqInhibit = true) : interruptTaken s = none := by
  simp [interruptTaken, h]

theorem interruptTaken_of_flag {s : State} (h : s.flag .I = false) : interruptTaken s = none := by
  simp [interruptTaken, h]

/-- The step of a running machine with no interrupt to take runs what it fetches (R380). -/
theorem step_of_fetch {s : State} {i : Instr} (hrun : s.run = .running) (hirq : interruptTaken s = none)
    (hf : fetch s = .ok i) : step s = exec i (s.setInhibit false) := by
  simp only [step, hrun, hirq, hf]

/-- `irq_inhibit` has no part in where an instruction stores. -/
theorem storesTo_setInhibit (i : Instr) (s : State) (b : Bool) (x : IoTarget) :
    storesTo i (s.setInhibit b) x = storesTo i s x := by
  have hslot (j : Nat) : pushSlot (s.setInhibit b) j = pushSlot s j := by
    induction j with
    | zero => rfl
    | succ j ih => rw [pushSlot, ih]; rfl
  have haddr : storeAddrs i (s.setInhibit b) = storeAddrs i s := by
    cases i with
    | rcall | icall | eicall | call => exact List.map_congr_left fun j _ => hslot j
    | _ => rfl
  have hloc : storeLocations i (s.setInhibit b) = storeLocations i s := by
    cases i with
    | outIo | sbi | cbi => rfl
    | _ => exact congrArg (List.filterMap _) haddr
  rw [storesTo, storesTo, hloc]
  rfl

/-- A store to SREG that raises I delays interrupts, and one that leaves it clear lets none through. -/
theorem interruptTaken_writeSreg {s : State} (v : Byte) (hI : s.flag .I = false) :
    interruptTaken (s.writeSreg v) = none := by
  cases hv : getFlag v .I with
  | false => exact interruptTaken_of_flag hv
  | true =>
    refine interruptTaken_of_inhibit ?_
    have hI' : getFlag s.sreg .I = false := hI
    simp [State.writeSreg, hv, hI']

/-- The pc has no part in the check. -/
theorem interruptTaken_setPc (s : State) (v : PcWord) : interruptTaken (s.setPc v) = interruptTaken s := rfl

theorem irqInhibit_of_reti {s t : State} (h : exec .reti s = .next t) : t.irqInhibit = true := by
  have hr := finish_eq_next.1 h
  unfold interruptReturn at hr
  split at hr <;> cases hr
  rfl

/-- Settles O54: SEI and RETI leave `irq_inhibit` set, CLI leaves I clear, OUT to SREG one of the two; any other
instruction keeps the `irq_inhibit` that the step cleared, by `exec_runs`. -/
theorem interruptDelay : Obligations.InterruptDelay := by
  intro s t i hrun hirq hf hstep
  have h : exec i (s.setInhibit false) = .next t := (step_of_fetch hrun hirq hf).symm.trans hstep
  refine ⟨?_, ?_, fun hd hstore => ?_⟩
  · rintro (rfl | rfl | rfl | rfl | rfl)
    · obtain rfl := Host.Outcome.next.inj h
      exact interruptTaken_of_inhibit rfl
    · obtain rfl := Host.Outcome.next.inj h
      exact interruptTaken_of_inhibit rfl
    · exact interruptTaken_of_inhibit (irqInhibit_of_reti h)
    · obtain rfl := Host.Outcome.next.inj h
      exact interruptTaken_of_flag (putFlagNext_effect .I false _).1
    · obtain rfl := Host.Outcome.next.inj h
      exact interruptTaken_of_flag (putFlagNext_effect .I false _).1
  · rintro A r rfl rfl hI
    have hx : ioTarget (s.setInhibit false).cfg s.cfg.ioSreg = .sreg := if_pos rfl
    obtain rfl := Host.Outcome.next.inj h
    rw [State.advance, interruptTaken_setPc, ioWrite, hx]
    exact interruptTaken_writeSreg _ hI
  · rw [← storesTo_setInhibit i s false] at hstore
    rcases exec_cases h with ⟨u, v, hu, rfl, -, -⟩ | ⟨-, u, hu, rfl⟩
    · exact hu.inhibit (inhibit_notMem_writtenParts hd hstore)
    · exact hu.inhibit List.not_mem_nil

/-! ### The entry of an interrupt -/

/-- Every part that a store to a CPU register may write. -/
def anyParts : List Part := .sp :: .inhibit :: allFlags

theorem allows_anyParts (x : IoTarget) : Allows anyParts x := by
  cases x with
  | sreg => exact ⟨fun f => by simp [anyParts, mem_allFlags], by simp [anyParts]⟩
  | _ => simp [Allows, anyParts]

theorem irqAck_eq (n : Nat) (s : State) :
    irqAck n s = (s.setIrqPending (if n ∈ s.cfg.ackClears then s.irqPending.filter (· ≠ n) else s.irqPending)).record
      (.irqAck n) := by
  unfold irqAck
  by_cases h : n ∈ s.cfg.ackClears
  · simp only [List.contains_iff_mem, h, if_true]
    congr 2
    exact List.filter_congr fun m _ => by rw [bne, decide_not, beq_eq_decide]
  · simp only [List.contains_iff_mem, h, if_false]
    rfl

/-- The entry of an interrupt is tame but for the pc, which goes to the vector, and the request that `IrqAck` clears. -/
theorem interruptEntry_tame {n : Nat} {s t : State} (h : interruptEntry n s = .ok t) :
    ∃ u, Tame anyParts s u ∧ t = (u.setPc (vector s.cfg n)).setIrqPending
      (if n ∈ s.cfg.ackClears then s.irqPending.filter (· ≠ n) else s.irqPending) := by
  unfold interruptEntry at h
  split at h
  · cases h
  next w hw =>
    have hpush : Tame anyParts s w := .pushPc (by simp [anyParts]) hw fun _ _ _ _ => allows_anyParts _
    obtain ⟨x, hx, hsx⟩ : ∃ x, Tame anyParts s x ∧
        x = if s.cfg.core = .AVRxm then w else w.setSreg (putFlag w.sreg .I false) := by
      refine ⟨_, ?_, rfl⟩
      split_ifs
      · exact hpush
      · exact hpush.trans (.setSreg fun f hf => absurd (by simp [anyParts, mem_allFlags]) hf)
    dsimp only at h
    rw [← hsx] at h
    cases h
    have hrun : Tame anyParts s ((((x.setInhibit false).setRun .running).record (.irqAck n)).countDraw) :=
      ((((hx.trans (.setInhibit false (by simp [anyParts]))).trans (.setRun .running)).trans (.record _)).trans .countDraw)
    have hp : x.irqPending = s.irqPending := congrArg (fun y => y.2.2.2.2.2.2.2.2) hx.fixed
    refine ⟨_, hrun, ?_⟩
    rw [irqAck_eq, ← hx.cfg_eq, ← hp]
    rfl

/-- What a step of the machine is: the entry of an interrupt, nothing, or an instruction. -/
theorem step_cases {s t : State} (h : step s = .next t) :
    (∃ n, interruptTaken s = some n ∧ interruptEntry n s = .ok t) ∨ (interruptTaken s = none ∧ t = s) ∨
      s.run = .running ∧ interruptTaken s = none ∧ ∃ i, fetch s = .ok i ∧ exec i (s.setInhibit false) = .next t := by
  unfold step at h
  split at h
  · cases h
  · split at h
    next n hn => exact .inl ⟨n, hn, finish_eq_next.1 h⟩
    next hn =>
      cases h
      exact .inr (.inl ⟨hn, rfl⟩)
  next hrun =>
    split at h
    next n hn => exact .inl ⟨n, hn, finish_eq_next.1 h⟩
    next hn =>
      split at h
      next i hi => exact .inr (.inr ⟨hrun, hn, i, hi, h⟩)
      · cases h

/-! ### The platform's state -/

/-- Settles O58: `Tame` fixes all of it, the entry of an interrupt clears its request besides, and SPM writes the three
last parts besides. -/
theorem programMemoryChangedOnlyBySpm : Obligations.ProgramMemoryChangedOnlyBySpm := by
  intro s t h
  rcases step_cases h with ⟨n, hn, he⟩ | ⟨hn, rfl⟩ | ⟨hrun, hn, i, hi, hx⟩
  · obtain ⟨u, hu, rfl⟩ := interruptEntry_tame he
    have hfix := hu.fixed
    simp only [State.fixed, Prod.mk.injEq] at hfix
    obtain ⟨-, hcfg, hprog, hbuf, hlock, hjtag, hocd, hsleep, -⟩ := hfix
    rw [hn]
    exact ⟨hcfg, hjtag, hocd, hsleep, rfl, fun _ => ⟨hprog, hbuf, hlock⟩⟩
  · rw [hn]
    exact ⟨rfl, rfl, rfl, rfl, rfl, fun _ => ⟨rfl, rfl, rfl⟩⟩
  · rw [hn]
    rcases exec_cases hx with ⟨u, v, hu, rfl, -, -⟩ | ⟨hspm, u, hu, rfl⟩
    · have hfix := hu.fixed
      simp only [State.fixed, Prod.mk.injEq] at hfix
      obtain ⟨-, hcfg, hprog, hbuf, hlock, hjtag, hocd, hsleep, hpend⟩ := hfix
      exact ⟨hcfg, hjtag, hocd, hsleep, hpend, fun _ => ⟨hprog, hbuf, hlock⟩⟩
    · have hfix := hu.fixed
      simp only [State.fixed, Prod.mk.injEq] at hfix
      obtain ⟨-, hcfg, -, -, -, hjtag, hocd, hsleep, hpend⟩ := hfix
      refine ⟨hcfg, hjtag, hocd, hsleep, hpend, fun hno => ?_⟩
      obtain ⟨h1, h2⟩ := hno hrun rfl
      rcases hspm with rfl | rfl
      · exact absurd hi h1
      · exact absurd hi h2

/-! ### The invariant -/

section
variable {l : List Part} {s t : State}

/-- The invariant looks at six fields. -/
theorem State.Inv.of_eq (h : s.Inv) (hcfg : t.cfg = s.cfg) (hdata : t.data = s.data) (hprog : t.prog = s.prog)
    (hpc : t.pc.toNat < 2 ^ s.cfg.pcBits.width) (hsp : t.sp = s.sp) : t.Inv :=
  ⟨hcfg ▸ h.cfg, hdata ▸ h.data, hprog ▸ h.prog, hdata ▸ hcfg ▸ h.mapped, hprog ▸ hcfg ▸ h.loaded, hcfg ▸ hpc,
    hsp ▸ hcfg ▸ h.sp⟩

theorem State.Inv.of_tame (h : s.Inv) (ht : Tame l s t) : t.Inv := by
  obtain ⟨hcan, hmap, hsp⟩ := ht.inv ⟨h.data, h.mapped, h.sp⟩
  have hprog : t.prog = s.prog := congrArg (fun y => y.2.2.1) ht.fixed
  exact ⟨ht.cfg_eq ▸ h.cfg, hcan, hprog ▸ h.prog, hmap, hprog ▸ ht.cfg_eq ▸ h.loaded, ht.pc_eq ▸ ht.cfg_eq ▸ h.pc, hsp⟩

theorem State.Inv.setPc (h : s.Inv) {v : PcWord} (hv : v.toNat < 2 ^ s.cfg.pcBits.width) : (s.setPc v).Inv :=
  h.of_eq rfl rfl rfl hv rfl

/-- The words SPM stores are inside FLASHEND, and in canonical form as all of program memory (R288). -/
theorem State.Inv.spmEffect (h : s.Inv) : (spmEffect s).Inv :=
  ⟨h.cfg, h.data, storeWords_wf _ _ _ h.prog, h.mapped, storeWords_bound _ _ _ h.loaded, h.pc, h.sp⟩

end

/-- Settles O60: the entry of an interrupt and every instruction are tame up to a move of the pc within its width, and SPM
keeps program memory canonical and inside FLASHEND. -/
theorem everyStepKeepsInvariant : Obligations.EveryStepKeepsInvariant := by
  intro s t hs h
  rcases step_cases h with ⟨n, -, he⟩ | ⟨-, rfl⟩ | ⟨-, -, i, -, hx⟩
  · obtain ⟨u, hu, rfl⟩ := interruptEntry_tame he
    have hv : (vector s.cfg n).toNat < 2 ^ u.cfg.pcBits.width := by
      rw [hu.cfg_eq]
      exact pcTrunc_lt s.cfg _
    exact ((hs.of_tame hu).setPc hv).of_eq rfl rfl rfl hv rfl
  · exact hs
  · have hs' : (s.setInhibit false).Inv := hs.of_eq rfl rfl rfl hs.pc rfl
    rcases exec_cases hx with ⟨u, v, hu, rfl, hv, -⟩ | ⟨-, u, hu, rfl⟩
    · exact (hs'.of_tame hu).setPc (hu.cfg_eq ▸ hv)
    · exact (hs'.spmEffect.of_tame hu).setPc (pcAdd_lt _ _ _)

/-- Settles O59: both memories are empty, and the configuration of reset is consistent. -/
theorem resetMeetsInvariant : Obligations.ResetMeetsInvariant := by
  have hcfg : defaultConfig.wf = true := by decide
  exact ⟨hcfg, rfl, rfl, nofun, nofun, by decide, by decide⟩

end Sys2Proof.Machine
end

section
/-! SUPPORT. Fetching (spec/20_memory.md R66, spec/60_exceptions.md R372 to R378): the bytes at the pc are those of one or two
words of program memory, and what decoding answers for them is what the step does. -/

namespace Sys2Proof.Machine

/-! ### The bytes at the pc -/

/-- The second word an instruction at the pc can have: none at FLASHEND (R66). -/
def nextWords (s : State) : List Word :=
  if s.pc.toNat + 1 ≤ s.cfg.flashEnd then [s.progWord (s.pc.toNat + 1)] else []

theorem fetchWord_eq {s : State} {a : Nat} (h : a ≤ s.cfg.flashEnd) : fetchWord s a = wordBytes [s.progWord a] := by
  simp only [fetchWord, if_pos h, wordBytes, State.progWord, word_low, word_high]

theorem fetchBytes_eq {s : State} (h : s.pc.toNat ≤ s.cfg.flashEnd) :
    fetchBytes s = wordBytes [s.progWord s.pc.toNat] ++ wordBytes (nextWords s) := by
  rw [fetchBytes, if_pos h, fetchWord_eq h, nextWords]
  split_ifs with h2
  · rw [fetchWord_eq h2]
  · rw [fetchWord, if_neg h2]
    rfl

theorem fetch_of_ok {s : State} {i : Instr} {rest : List Byte} (h : decode s.cfg (fetchBytes s) = .ok (i, rest)) :
    fetch s = .ok i := by
  simp only [fetch, h]

/-- The step of a running machine with no interrupt to take faults where the fetch does (R378). -/
theorem step_of_decodeError {s : State} {e : DecodeError} (hrun : s.run = .running) (hirq : interruptTaken s = none)
    (h : decode s.cfg (fetchBytes s) = .error e) : step s = .fault (decodeFault s.pc.toNat e) := by
  simp only [step, hrun, hirq, fetch, h]

/-- Settles O8: the words of the statement are the bytes that the fetch decodes. -/
theorem decodedInstructionRuns : Obligations.DecodedInstructionRuns := by
  intro s i rest hrun hirq hpc hd
  have hb : fetchBytes s = wordBytes (s.progWord s.pc.toNat :: nextWords s) := fetchBytes_eq hpc
  exact step_of_fetch hrun hirq (fetch_of_ok (hb ▸ hd))

/-- The bytes at the pc begin with those of the words that stand there. -/
theorem fetchBytes_of_words {s : State} {words : List Word} (h1 : words.length = 1 ∨ words.length = 2)
    (hend : s.pc.toNat + words.length ≤ s.cfg.flashEnd + 1)
    (hw : ∀ n (h : n < words.length), s.progWord (s.pc.toNat + n) = words[n]) :
    ∃ rest, fetchBytes s = wordBytes words ++ rest := by
  rcases h1 with h1 | h2
  · obtain ⟨w, rfl⟩ := List.length_eq_one_iff.1 h1
    have h0 : s.progWord s.pc.toNat = w := hw 0 (by simp)
    exact ⟨_, h0 ▸ fetchBytes_eq (by simpa using hend)⟩
  · obtain ⟨w, w2, rfl⟩ := List.length_eq_two.1 h2
    have h0 : s.progWord s.pc.toNat = w := hw 0 (by simp)
    have h1 : s.progWord (s.pc.toNat + 1) = w2 := hw 1 (by simp)
    have hend2 : s.pc.toNat + 1 ≤ s.cfg.flashEnd := by simpa using hend
    refine ⟨[], ?_⟩
    rw [fetchBytes_eq (by omega), nextWords, if_pos hend2, h0, h1]
    rfl

/-- Settles O9: the bytes at the pc begin with the encoding, which decodes to the canonical instruction (`decode_encode`). -/
theorem encodedInstructionRuns : Obligations.EncodedInstructionRuns := by
  intro s i hrun hirq hwf hav hregs hend hwords
  have hlen : (encode i).length = 1 ∨ (encode i).length = 2 := by
    rw [encode_length]
    split_ifs <;> simp
  obtain ⟨rest, hb⟩ := fetchBytes_of_words hlen hend hwords
  exact step_of_fetch hrun hirq (fetch_of_ok (hb ▸ decode_encode rest hwf hav hregs))

/-- Settles O10: each word is decoded. -/
theorem writtenWordsDecode : Obligations.WrittenWordsDecode :=
  ⟨rfl, rfl, rfl, rfl, rfl, rfl, rfl, rfl, rfl, rfl, rfl, rfl, rfl⟩

end Sys2Proof.Machine
end

section
/-! SUPPORT. The length of an instruction by its first word (spec/30_encoding.md R103). -/

namespace Sys2Proof

/-- The four bit patterns of R103. -/
theorem isTwoWord_iff (w : Word) : isTwoWord w = true ↔
    w &&& 0xFE0E = 0x940C ∨ w &&& 0xFE0E = 0x940E ∨ w &&& 0xFE0F = 0x9000 ∨ w &&& 0xFE0F = 0x9200 := by
  simp only [isTwoWord, Bool.or_eq_true, beq_iff_eq, or_assoc]

theorem twoWords_iff (f : Form) : f.twoWords = true ↔ f = .jmp ∨ f = .call ∨ f = .lds ∨ f = .sts := by
  simp only [Form.twoWords, Bool.or_eq_true, beq_iff_eq, or_assoc]

/-- A form has two words exactly where its first word is that of a two-word instruction: the opcode lines of JMP, CALL, LDS
and STS are the four patterns. -/
theorem twoWords_eq_isTwoWord {core : Core} {w : Word} {f : Form} (h : findForm core w = some f) :
    f.twoWords = isTwoWord w := by
  rw [Bool.eq_iff_iff, twoWords_iff, isTwoWord_iff]
  constructor
  · intro hf
    have h16 : f ≠ .lds16 ∧ f ≠ .sts16 := by rcases hf with rfl | rfl | rfl | rfl <;> decide
    have hl := and_line h h16
    rcases hf with rfl | rfl | rfl | rfl
    · exact .inl hl
    · exact .inr (.inl hl)
    · exact .inr (.inr (.inl hl))
    · exact .inr (.inr (.inr hl))
  · have found {g : Form} (hg : findForm core w = some g) : f = g := Option.some.inj (h.symm.trans hg)
    rintro (hw | hw | hw | hw)
    · exact .inl (found (findForm_of_known hw rfl (fun _ => by decide) rfl))
    · exact .inr (.inl (found (findForm_of_known hw rfl (fun _ => by decide) rfl)))
    · exact .inr (.inr (.inl (found (findForm_of_known hw rfl (fun _ => by decide) rfl))))
    · exact .inr (.inr (.inr (found (findForm_of_known hw rfl (fun _ => by decide) rfl))))

theorem wordBytes_cons_inj {w v : Word} {a b : List Byte} (h : wordBytes [w] ++ a = wordBytes [v] ++ b) :
    w = v ∧ a = b := by
  simp only [wordBytes, List.cons_append, List.nil_append, List.cons.injEq] at h
  obtain ⟨hlo, hhi, hab⟩ := h
  exact ⟨by rw [← word_bytes w, ← word_bytes v, hlo, hhi], hab⟩

/-- Settles O7: a decoded instruction has the length of its form, and that is what the first word's bits say. -/
theorem instructionLengthFollowsFirstWord : Obligations.InstructionLengthFollowsFirstWord := by
  refine ⟨isTwoWord_iff, fun c w tail i rest h => ?_⟩
  obtain ⟨v, f, hf, -, -, ⟨ht, hb, rfl⟩ | ⟨ht, w2, hb, rfl⟩⟩ := decode_ok h
  · obtain ⟨rfl, rfl⟩ := wordBytes_cons_inj hb
    have hn : isTwoWord w = false := twoWords_eq_isTwoWord hf ▸ ht
    refine ⟨fun htwo => absurd ((isTwoWord_iff w).2 htwo) (by simp [hn]), fun _ => ⟨?_, rfl⟩⟩
    rw [encode_buildInstr 0 hf, ht]
    rfl
  · obtain ⟨rfl, rfl⟩ := wordBytes_cons_inj (b := wordBytes [w2] ++ rest) hb
    have hy : isTwoWord w = true := twoWords_eq_isTwoWord hf ▸ ht
    refine ⟨fun _ => ⟨?_, w2, rfl⟩, fun hno => absurd ((isTwoWord_iff w).1 hy) hno⟩
    rw [encode_buildInstr w2 hf, ht]
    rfl

end Sys2Proof
end

section
/-! SUPPORT. The words that no opcode line matches (spec/30_encoding.md R107). Whether a word matches a line is a test on its
bits; a combination of such tests that is settled by the bits known so far, whatever the others are, holds of every word
with those bits. Splitting on the bits of a word one by one settles the comparison of R107's list with the opcode map. -/

namespace Sys2Proof

/-- Tests of a word: its bits under a mask, combined. -/
inductive WordTest where
  | bits (mask pattern : Word)
  | not (a : WordTest)
  | and (a b : WordTest)
  | or (a b : WordTest)
  | iff (a b : WordTest)

def WordTest.holds (w : Word) : WordTest → Bool
  | .bits m p => w &&& m == p
  | .not a => !a.holds w
  | .and a b => a.holds w && b.holds w
  | .or a b => a.holds w || b.holds w
  | .iff a b => a.holds w == b.holds w

/-- What the bits `fp` under `fm` settle of a test. -/
def WordTest.verdict (fm fp : Word) : WordTest → Option Bool
  | .bits m p => Row.verdict fm fp ⟨.nop, m, p⟩
  | .not a => (a.verdict fm fp).map (!·)
  | .and a b =>
    match a.verdict fm fp, b.verdict fm fp with
    | some false, _ => some false
    | _, some false => some false
    | some true, some true => some true
    | _, _ => none
  | .or a b =>
    match a.verdict fm fp, b.verdict fm fp with
    | some true, _ => some true
    | _, some true => some true
    | some false, some false => some false
    | _, _ => none
  | .iff a b =>
    match a.verdict fm fp, b.verdict fm fp with
    | some x, some y => some (x == y)
    | _, _ => none

theorem WordTest.verdict_sound {fm fp w : Word} (h : w &&& fm = fp) {t : WordTest} {b : Bool}
    (hv : t.verdict fm fp = some b) : t.holds w = b := by
  induction t generalizing b with
  | bits m p => exact Row.verdict_sound (r := ⟨.nop, m, p⟩) h hv
  | not a ih =>
    obtain ⟨x, hx, rfl⟩ := Option.map_eq_some_iff.1 hv
    rw [holds, ih hx]
  | and a b iha ihb | or a b iha ihb | iff a b iha ihb =>
    simp only [verdict] at hv
    split at hv <;> cases hv <;> simp_all [holds]

/-- The test holds of every word with the bits `fp` under `fm`: it is settled, perhaps after a split on the listed bits. -/
def WordTest.always (t : WordTest) (fm fp : Word) (splits : List Nat) : Bool :=
  match t.verdict fm fp with
  | some b => b
  | none =>
    match splits with
    | [] => false
    | i :: rest => t.always (fm ||| 1#16 <<< i) fp rest && t.always (fm ||| 1#16 <<< i) (fp ||| 1#16 <<< i) rest

/-- A bit of a word is known to be 0 or 1. -/
theorem and_bit (w : Word) (i : Nat) : w &&& 1#16 <<< i = 0 ∨ w &&& 1#16 <<< i = 1#16 <<< i := by
  by_cases hi : i < 16
  · have hbit : w &&& 1#16 <<< i = if w.getLsbD i then 1#16 <<< i else 0 := by
      rw [← BitVec.twoPow_eq, BitVec.and_twoPow]
      rfl
    rw [hbit]
    cases w.getLsbD i <;> simp
  · have hz : 1#16 <<< i = 0 := by
      rw [BitVec.shiftLeft_eq_zero (by omega)]
      rfl
    exact .inl (by rw [hz]; exact BitVec.and_zero)

theorem WordTest.always_sound {t : WordTest} {splits : List Nat} {fm fp w : Word} (ht : t.always fm fp splits = true)
    (h : w &&& fm = fp) : t.holds w = true := by
  induction splits generalizing fm fp with
  | nil =>
    unfold always at ht
    split at ht
    next b hv =>
      subst ht
      exact verdict_sound h hv
    · cases ht
  | cons i rest ih =>
    unfold always at ht
    split at ht
    next b hv =>
      subst ht
      exact verdict_sound h hv
    · obtain ⟨h0, h1⟩ := Bool.and_eq_true_iff.1 ht
      rcases and_bit w i with hb | hb
      · exact ih h0 ((and_or_eq h hb).trans (BitVec.or_zero))
      · exact ih h1 (and_or_eq h hb)

/-- All tests of a list. -/
def WordTest.any (l : List WordTest) : WordTest := l.foldr .or (.bits 0 1)

theorem WordTest.holds_any (w : Word) (l : List WordTest) : (any l).holds w = l.any (holds w) := by
  induction l with
  | nil => simp [any, holds]
  | cons a l ih => rw [any, List.foldr_cons, holds, ← any, ih, List.any_cons]

/-- Some row of a nibble matches. -/
def matchesRow (n : BitVec 4) : WordTest := .any ((rowsOf n).map fun r => .bits r.mask r.pattern)

/-- The list of R107. -/
def listedReserved : WordTest :=
  .any [.and (.bits 0xFF00 0) (.not (.bits 0xFFFF 0)),
    .and (.bits 0xFC00 0x9000) (.any [.bits 0xF 0x3, .bits 0xF 0x8, .bits 0xF 0xB]),
    .bits 0xFE0F 0x9404,
    .and (.bits 0xFE0F 0x9409)
      (.not (.any [.bits 0xFFFF 0x9409, .bits 0xFFFF 0x9419, .bits 0xFFFF 0x9509, .bits 0xFFFF 0x9519])),
    .bits 0xFF0F 0x950B,
    .any ([0x9528, 0x9538, 0x9548, 0x9558, 0x9568, 0x9578, 0x95B8].map (.bits 0xFFFF)),
    .bits 0xF808 0xF808]

theorem matchesRow_holds (n : BitVec 4) (w : Word) :
    (matchesRow n).holds w = (rowsOf n).any fun r => w &&& r.mask == r.pattern := by
  rw [matchesRow, WordTest.holds_any, List.any_map]
  rfl

/-- The order in which the bits of a word are split: those that most lines look at first. -/
def splitOrder : List Nat := [11, 10, 9, 3, 2, 1, 0, 8, 7, 6, 5, 4]

/-- In every nibble of the opcode map, R107's list is what the rows leave out. -/
theorem listed_iff_not_matchesRow :
    ∀ n : BitVec 4, ((listedReserved.iff (.not (matchesRow n))).always 0xF000 (n.setWidth 16 <<< 12) splitOrder) = true := by
  decide +kernel

/-- The words of R108 are not in the list. -/
theorem not_listed_short : (listedReserved.not.always 0xF000 0xA000 []) = true := by
  decide +kernel

/-- A first word decodes to nothing exactly where it is in the list, on every core. -/
theorem findForm_eq_none_iff {core : Core} {w : Word} : findForm core w = none ↔ listedReserved.holds w = true := by
  have hn : w &&& 0xF000 = (field w 12 4).setWidth 16 <<< 12 :=
    and_field_mask (w := w) (lo := 12) (len := 4) rfl
  have hiff := WordTest.always_sound (listed_iff_not_matchesRow (field w 12 4)) hn
  rw [WordTest.holds, WordTest.holds, matchesRow_holds, beq_iff_eq] at hiff
  unfold findForm
  split_ifs with hx
  · have hshort := WordTest.always_sound not_listed_short (hn.trans (by rw [hx.2]; rfl))
    rw [WordTest.holds, Bool.not_eq_true'] at hshort
    simp [hshort]
  · rw [hiff, Option.map_eq_none_iff, List.find?_eq_none]
    simp

/-- Only a reserved word is decoded to one. -/
theorem decode_eq_reserved_iff {c : Config} {w : Word} {more : List Byte} :
    decode c (wordBytes [w] ++ more) = .error (.reserved w) ↔ findForm c.core w = none := by
  refine ⟨fun h => ?_, decode_reserved more⟩
  have regs (i : Instr) (more : List Byte) :
      ((checkRegs c.core i).map fun i => (i, more)) ≠ .error (.reserved w) := by
    unfold checkRegs
    split <;> simp [Except.map]
  cases hf : findForm c.core w with
  | none => rfl
  | some f =>
    cases ha : available c f with
    | false =>
      rw [decode_unavailable more hf ha] at h
      cases h
    | true =>
      cases ht : f.twoWords with
      | false =>
        rw [decode_oneWord more hf ha ht] at h
        exact absurd h (regs _ _)
      | true =>
        match more, h with
        | lo :: hi :: rest, h =>
          rw [wordBytes_append_cons_cons, decode_twoWords _ rest hf ha ht] at h
          exact absurd h (regs _ _)
        | [], h | [_], h =>
          rw [decode_noSecondWord hf ha ht (by simp)] at h
          cases h

/-- Settles O6: the list is what the opcode map leaves out (`listed_iff_not_matchesRow`), and a fetch faults as the decoding
does. -/
theorem reservedWordsAreTheListedOnes : Obligations.ReservedWordsAreTheListedOnes := by
  have hall (w : Word) : w &&& 0xFFFF = w := and_allOnes16 w
  have holds_iff (core : Core) (w : Word) : findForm core w = none ↔
      (w &&& 0xFF00 = 0x0000 ∧ w ≠ 0x0000) ∨
      (w &&& 0xFC00 = 0x9000 ∧ (w &&& 0x000F = 0x3 ∨ w &&& 0x000F = 0x8 ∨ w &&& 0x000F = 0xB)) ∨
      w &&& 0xFE0F = 0x9404 ∨
      (w &&& 0xFE0F = 0x9409 ∧ w ≠ 0x9409 ∧ w ≠ 0x9419 ∧ w ≠ 0x9509 ∧ w ≠ 0x9519) ∨
      w &&& 0xFF0F = 0x950B ∨
      w ∈ [0x9528, 0x9538, 0x9548, 0x9558, 0x9568, 0x9578, 0x95B8] ∨
      w &&& 0xF808 = 0xF808 := by
    rw [findForm_eq_none_iff]
    simp only [listedReserved, WordTest.holds_any, List.any_cons, List.any_nil, List.map_cons, List.map_nil,
      WordTest.holds, hall, Bool.or_false, Bool.or_eq_true, Bool.and_eq_true, Bool.not_eq_true', Bool.or_eq_false_iff,
      beq_iff_eq, beq_eq_false_iff_ne, ne_eq, List.mem_cons, List.not_mem_nil, or_false]
  refine ⟨fun c w rest => decode_eq_reserved_iff.trans (holds_iff c.core w), fun s hrun hirq hpc hl => ?_⟩
  have hd := decode_reserved (wordBytes (Machine.nextWords s)) ((holds_iff s.cfg.core _).2 hl)
  rw [← Machine.fetchBytes_eq hpc] at hd
  exact Machine.step_of_decodeError hrun hirq hd

end Sys2Proof
end

section
/-! SUPPORT. The forms each core and each device has (spec/00_scope.md R7, R10), and the faults of a step that cannot decode
its instruction, in the order of R378. -/

namespace Sys2Proof

theorem ctorIdx_lt (f : Form) : f.ctorIdx < 103 := by cases f <;> decide

/-- The forms a core lacks whatever the device, but that an AVR or AVRe can have SPM Z+ and an AVRe the multiplies. -/
def coreLacks (core : Core) (spmInc hasMul : Bool) : List Form :=
  let multiplies : List Form := [.mul, .muls, .mulsu, .fmul, .fmuls, .fmulsu]
  match core with
  | .AVR => multiplies ++ [.movw, .lpm, .lpmInc, .des, .xch, .las, .lac, .lat, .lds16, .sts16] ++
    (if spmInc then [] else [.spmInc])
  | .AVRe => (if hasMul then [] else multiplies) ++ [.des, .xch, .las, .lac, .lat, .lds16, .sts16] ++
    (if spmInc then [] else [.spmInc])
  | .AVRxm => [.lds16, .sts16]
  | .AVRxt => [.des, .xch, .las, .lac, .lat, .lds16, .sts16]
  | .AVRrc => multiplies ++ [.adiw, .sbiw, .des, .eijmp, .jmp, .eicall, .call, .movw, .lds, .lddY, .lddZ, .sts, .stdY,
    .stdZ, .lpmR0, .lpm, .lpmInc, .elpmR0, .elpm, .elpmInc, .spm, .spmInc, .xch, .las, .lac, .lat]

/-- The columns of Tables 4-2 to 4-6 look at the configuration for SPM Z+ only. -/
theorem cores_congr {c c' : Config} (h : c.spmIncClassic = c'.spmIncClassic) (f : Form) : f.cores c = f.cores c' := by
  cases f with
  | spmInc => exact if_congr (by rw [h]) rfl rfl
  | _ => rfl

/-- Some configuration with SPM Z+ on the classic cores or without. -/
def tableConfig (spmInc : Bool) : Config := { Machine.defaultConfig with spmIncClassic := spmInc }

/-- The columns and the list agree, by the numbers of the forms. -/
theorem cores_table : ∀ core ∈ [Core.AVR, .AVRe, .AVRxm, .AVRxt, .AVRrc], ∀ spmInc hasMul : Bool, ∀ n < 103,
    (((Form.ofNat n).cores (tableConfig spmInc)).contains core &&
      (!((Form.ofNat n).isMultiply && core == .AVRe) || hasMul)) =
    !(coreLacks core spmInc hasMul).contains (Form.ofNat n) := by
  decide +kernel

theorem cores_eq_not_coreLacks (c : Config) (f : Form) :
    ((f.cores c).contains c.core && (!(f.isMultiply && c.core == .AVRe) || c.hasMul)) =
      !(coreLacks c.core c.spmIncClassic c.hasMul).contains f := by
  have hcore : c.core ∈ [Core.AVR, .AVRe, .AVRxm, .AVRxt, .AVRrc] := by cases c.core <;> decide
  have h := cores_table c.core hcore c.spmIncClassic c.hasMul f.ctorIdx (ctorIdx_lt f)
  rwa [Form.ofNat_ctorIdx, cores_congr (c' := c) (c := tableConfig c.spmIncClassic) rfl] at h

theorem available_iff (c : Config) (f : Form) :
    available c f = true ↔ f ∉ c.absent ∧ f ∉ coreLacks c.core c.spmIncClassic c.hasMul ∧
      f ∉ (if c.hasEind then [] else [Form.eijmp, .eicall]) ∧
      f ∉ (if c.hasRampZ then [] else [Form.elpmR0, .elpm, .elpmInc]) := by
  have hlist : f ∉ coreLacks c.core c.spmIncClassic c.hasMul ↔
      (f.cores c).contains c.core = true ∧ (!(f.isMultiply && c.core == .AVRe) || c.hasMul) = true := by
    rw [← Bool.and_eq_true, cores_eq_not_coreLacks, Bool.not_eq_true', List.contains_eq_mem, decide_eq_false_iff_not]
  have heind : f ∉ (if c.hasEind then [] else [Form.eijmp, .eicall]) ↔ (!f.needsEind || c.hasEind) = true := by
    cases c.hasEind <;> simp [Form.needsEind]
  have hramp : f ∉ (if c.hasRampZ then [] else [Form.elpmR0, .elpm, .elpmInc]) ↔
      (!f.needsRampZ || c.hasRampZ) = true := by
    cases c.hasRampZ <;> simp [Form.needsRampZ, and_assoc]
  rw [hlist, heind, hramp]
  simp only [available, Bool.and_eq_true, Bool.not_eq_true', List.contains_eq_mem, decide_eq_true_eq,
    decide_eq_false_iff_not]
  tauto

/-- On AVRrc a register below 16 is reported (R374). -/
theorem checkRegs_error {i : Instr} (h : ∃ r ∈ i.regs, r.val < 16) :
    ∃ r : Reg, r.val < 16 ∧ checkRegs .AVRrc i = .error (.registerOutOfRange r) := by
  unfold checkRegs
  rw [if_pos rfl]
  cases hf : i.regs.find? fun r => decide (r.val < 16) with
  | some r => exact ⟨r, by simpa using List.find?_some hf, rfl⟩
  | none =>
    obtain ⟨r, hr, hlt⟩ := h
    exact absurd hlt (by simpa using List.find?_eq_none.1 hf r hr)

namespace Machine

/-- The words that the fetch hands to the decoder, of an instruction with two words. -/
theorem fetchBytes_two {s : State} (h : s.pc.toNat + 1 ≤ s.cfg.flashEnd) :
    fetchBytes s = wordBytes [s.progWord s.pc.toNat, s.progWord (s.pc.toNat + 1)] ++ [] := by
  rw [fetchBytes_eq (by omega), nextWords, if_pos h]
  rfl

/-- Settles O11: the forms are compared with the list by number, and each fault of decoding is the fault of the step. -/
theorem fetchFaultsInOrder : Obligations.FetchFaultsInOrder := by
  refine ⟨fun c f => ?_, fun s hrun hirq => ⟨fun hpc => ?_, fun hpc hf => ?_, fun f hpc hf => ⟨fun ha => ?_, ?_, ?_⟩⟩⟩
  · rw [available_iff, List.mem_append, List.mem_append, not_or, not_or, and_assoc]
    cases hc : c.core <;> exact Iff.rfl
  · have hb : fetchBytes s = [] := if_neg (by omega)
    exact step_of_decodeError hrun hirq (by rw [hb]; rfl)
  · exact step_of_decodeError hrun hirq (fetchBytes_eq hpc ▸ decode_reserved _ hf)
  · exact step_of_decodeError hrun hirq (fetchBytes_eq hpc ▸ decode_unavailable _ hf ha)
  · intro ha ht hend
    have hn : nextWords s = [] := if_neg (by omega)
    refine step_of_decodeError hrun hirq (fetchBytes_eq hpc ▸ decode_noSecondWord hf ha ht ?_)
    rw [hn]
    decide
  · intro ha hcore hwords hregs
    obtain ⟨r, hr, he⟩ := checkRegs_error hregs
    refine ⟨r, hr, ?_⟩
    cases ht : f.twoWords with
    | false =>
      rw [ht] at he
      refine step_of_decodeError (e := .registerOutOfRange r) hrun hirq ?_
      rw [fetchBytes_eq hpc, decode_oneWord _ hf ha ht, hcore]
      exact congrArg (Except.map _) he
    | true =>
      rw [ht] at he
      have hend : s.pc.toNat + 1 ≤ s.cfg.flashEnd := hwords.resolve_left (by simp [ht])
      refine step_of_decodeError (e := .registerOutOfRange r) hrun hirq ?_
      rw [fetchBytes_two hend, decode_twoWords _ _ hf ha ht, hcore]
      exact congrArg (Except.map _) he

end Machine
end Sys2Proof
end

section
/-! SUPPORT. The flag computations as plain numbers (spec/40_arithmetic_logic.md R141 to R143), and the results of the
arithmetic and logic instructions. -/

namespace Sys2Proof.Machine

/-! ### Bytes as signed numbers -/

theorem byte_msb_eq (x : Byte) : x.msb = decide (128 ≤ x.toNat) := BitVec.msb_eq_decide x

theorem byte_toInt (x : Byte) : x.toInt = if 128 ≤ x.toNat then (x.toNat : Int) - 256 else x.toNat := by
  rw [BitVec.toInt_eq_toNat_cond]
  split_ifs <;> omega

/-- V of a sum marks the signed sum that leaves its range (R141). -/
theorem sumOverflow_iff (a b r : Byte) (cin : Bool) (hr : r.toNat = (a.toNat + b.toNat + cin.toNat) % 256) :
    (a.msb == b.msb && r.msb != a.msb) = true ↔
      a.toInt + b.toInt + cin.toNat < -128 ∨ 127 < a.toInt + b.toInt + cin.toNat := by
  have ha := a.isLt
  have hb := b.isLt
  have hc := cin.toNat_lt
  rw [byte_msb_eq, byte_msb_eq, byte_msb_eq, byte_toInt, byte_toInt, hr]
  by_cases h1 : 128 ≤ a.toNat <;> by_cases h2 : 128 ≤ b.toNat <;> simp [h1, h2] <;> omega

/-- V of a difference marks the signed difference that leaves its range (R142). -/
theorem differenceOverflow_iff (a b r : Byte) (bin : Bool)
    (hr : r.toNat = (512 + a.toNat - b.toNat - bin.toNat) % 256) :
    (a.msb != b.msb && r.msb != a.msb) = true ↔
      a.toInt - b.toInt - bin.toNat < -128 ∨ 127 < a.toInt - b.toInt - bin.toNat := by
  have ha := a.isLt
  have hb := b.isLt
  have hc := bin.toNat_lt
  rw [byte_msb_eq, byte_msb_eq, byte_msb_eq, byte_toInt, byte_toInt, hr]
  by_cases h1 : 128 ≤ a.toNat <;> by_cases h2 : 128 ≤ b.toNat <;> simp [h1, h2] <;> omega

/-! ### What each computation leaves -/

theorem putHSVNZC_keeps (x : Byte) (h v n z c : Bool) (f : Flag) (hf : Part.flag f ∉ flagsHSVNZC) :
    getFlag (putHSVNZC x h v n z c) f = getFlag x f := by
  rw [getFlag_putHSVNZC]
  cases f <;> simp [flagsHSVNZC, flagsSVNZC, flagsSVNZ] at hf ⊢

theorem putSVNZC_keeps (x : Byte) (v n z c : Bool) (f : Flag) (hf : Part.flag f ∉ flagsSVNZC) :
    getFlag (putSVNZC x v n z c) f = getFlag x f := by
  rw [getFlag_putSVNZC]
  cases f <;> simp [flagsSVNZC, flagsSVNZ] at hf ⊢

theorem putSVNZ_keeps (x : Byte) (v n z : Bool) (f : Flag) (hf : Part.flag f ∉ flagsSVNZ) :
    getFlag (putSVNZ x v n z) f = getFlag x f := by
  rw [getFlag_putSVNZ]
  cases f <;> simp [flagsSVNZ] at hf ⊢

/-! ### The outcomes -/

/-- A flag of a state whose SREG is known. -/
theorem State.flag_of_sreg {t : State} {v : Byte} (h : t.sreg = v) (f : Flag) : t.flag f = getFlag v f := by
  rw [State.flag, h]

theorem addResult_toNat (a b : Byte) (cin : Bool) :
    (addResult a b cin).toNat = (a.toNat + b.toNat + cin.toNat) % 256 := by
  rw [addResult, BitVec.toNat_ofNat]

theorem subResult_toNat (a b : Byte) (bin : Bool) :
    (subResult a b bin).toNat = (512 + a.toNat - b.toNat - bin.toNat) % 256 := by
  have hb := b.isLt
  have hc := bin.toNat_lt
  rw [subResult, BitVec.toNat_ofInt]
  omega

theorem byte_eq_zero_iff (x : Byte) : (x == 0) = true ↔ x.toNat = 0 := by
  rw [beq_iff_eq, ← BitVec.toNat_inj]
  rfl

theorem AddFlagsOutcome.of_sreg {sreg a b : Byte} {cin : Bool} {t : State} (h : t.sreg = addSreg sreg a b cin) :
    AddFlagsOutcome a b cin t := by
  have hr := addResult_toNat a b cin
  simp only [AddFlagsOutcome, SignIsNXorV, State.flag_of_sreg h, addSreg, getFlag_putHSVNZC, decide_eq_true_eq]
  refine ⟨trivial, trivial, sumOverflow_iff a b _ cin hr, ?_, ?_, trivial⟩
  · rw [byte_msb_eq, hr, decide_eq_true_eq]
  · rw [byte_eq_zero_iff, hr]

theorem SubFlagsOutcome.of_sreg {sreg a b : Byte} {bin keepZ : Bool} {t : State}
    (h : t.sreg = subSreg sreg a b bin keepZ) : SubFlagsOutcome a b bin (!keepZ || getFlag sreg .Z) t := by
  have hr := subResult_toNat a b bin
  simp only [SubFlagsOutcome, SignIsNXorV, State.flag_of_sreg h, subSreg, getFlag_putHSVNZC, decide_eq_true_eq]
  refine ⟨trivial, trivial, differenceOverflow_iff a b _ bin hr, ?_, ?_, trivial⟩
  · rw [byte_msb_eq, hr, decide_eq_true_eq]
  · rw [Bool.and_eq_true, byte_eq_zero_iff, hr]

theorem LogicFlagsOutcome.of_sreg {sreg r : Byte} {t : State} (h : t.sreg = logicSreg sreg r) :
    LogicFlagsOutcome r t := by
  simp only [LogicFlagsOutcome, State.flag_of_sreg h, logicSreg, getFlag_putSVNZ]
  exact ⟨trivial, by rw [byte_msb_eq, decide_eq_true_eq], beq_iff_eq, Bool.xor_false _⟩

theorem ShiftRightOutcome.of_sreg {sreg a r : Byte} {t : State} (h : t.sreg = shiftRightSreg sreg a r) :
    ShiftRightOutcome a r t := by
  simp only [ShiftRightOutcome, SignIsNXorV, State.flag_of_sreg h, shiftRightSreg, getFlag_putSVNZC]
  exact ⟨trivial, byte_msb_eq_getLsbD r, beq_iff_eq, trivial, trivial⟩

/-! ### Sums and differences -/

/-- The end of every addition. -/
theorem addition_effect (d : Reg) (b : Byte) (cin : Bool) (s : State) :
    ∃ t, writeBack d (addResult (s.reg d) b cin) (addSreg s.sreg (s.reg d) b cin) s = .next t ∧
      (t.reg d).toNat = ((s.reg d).toNat + b.toNat + cin.toNat) % 256 ∧ AddFlagsOutcome (s.reg d) b cin t ∧
      Frame (.reg d :: flagsHSVNZC) s t ∧ PcAt s t 1 := by
  obtain ⟨t, ht, hreg, hsreg, hframe, hpc⟩ := writeBack_effect d (addResult (s.reg d) b cin)
    (addSreg s.sreg (s.reg d) b cin) s flagsHSVNZC (putHSVNZC_keeps _ _ _ _ _ _)
  exact ⟨t, ht, by rw [hreg, addResult_toNat], .of_sreg hsreg, hframe, hpc⟩

/-- Settles O16: ADD and ADC by `addition_effect`; LSL and ROL add the register to itself. -/
theorem additionResult : Obligations.AdditionResult := by
  intro s d r
  simp only [List.forall_mem_cons]
  refine ⟨addition_effect d _ _ s, addition_effect d _ _ s, ?_, ?_, List.forall_mem_nil _⟩
  · have h : exec (.lsl d) s = exec (.add d d) s := execLsl_eq_execAdd d s
    rw [h]
    exact addition_effect d _ _ s
  · have h : exec (.rol d) s = exec (.adc d d) s := execRol_eq_execAdc d s
    rw [h]
    exact addition_effect d _ _ s

/-- The end of every subtraction that writes its register. -/
theorem subtraction_effect (d : Reg) (b : Byte) (bin keepZ : Bool) (s : State) :
    ∃ t, writeBack d (subResult (s.reg d) b bin) (subSreg s.sreg (s.reg d) b bin keepZ) s = .next t ∧
      ((t.reg d).toNat : Int) = ((s.reg d).toNat - b.toNat - bin.toNat) % 256 ∧
      SubFlagsOutcome (s.reg d) b bin (!keepZ || s.flag .Z) t ∧ Frame (.reg d :: flagsHSVNZC) s t ∧ PcAt s t 1 := by
  obtain ⟨t, ht, hreg, hsreg, hframe, hpc⟩ := writeBack_effect d (subResult (s.reg d) b bin)
    (subSreg s.sreg (s.reg d) b bin keepZ) s flagsHSVNZC (putHSVNZC_keeps _ _ _ _ _ _)
  have hb := b.isLt
  have hc := bin.toNat_lt
  refine ⟨t, ht, ?_, .of_sreg hsreg, hframe, hpc⟩
  rw [hreg, subResult_toNat]
  omega

/-- The end of every comparison. -/
theorem comparison_effect (d : Reg) (b : Byte) (bin keepZ : Bool) (s : State) :
    ∃ t, writeFlags (subSreg s.sreg (s.reg d) b bin keepZ) s = .next t ∧
      SubFlagsOutcome (s.reg d) b bin (!keepZ || s.flag .Z) t ∧ Frame flagsHSVNZC s t ∧ PcAt s t 1 := by
  obtain ⟨t, ht, hsreg, hframe, hpc⟩ := writeFlags_effect (subSreg s.sreg (s.reg d) b bin keepZ) s flagsHSVNZC
    (putHSVNZC_keeps _ _ _ _ _ _)
  exact ⟨t, ht, .of_sreg hsreg, hframe, hpc⟩

/-- Settles O17: the four subtractions by `subtraction_effect`, the three comparisons by `comparison_effect`. -/
theorem subtractionResult : Obligations.SubtractionResult := by
  intro s d r K
  simp only [List.forall_mem_cons]
  exact ⟨⟨subtraction_effect d _ false false s, subtraction_effect d _ false false s, subtraction_effect d _ _ true s,
      subtraction_effect d _ _ true s, List.forall_mem_nil _⟩,
    comparison_effect d _ false false s, comparison_effect d _ false false s, comparison_effect d _ _ true s,
    List.forall_mem_nil _⟩

/-! ### Logic -/

/-- The end of every logic instruction that writes its register. -/
theorem logic_effect (d : Reg) (v : Byte) (s : State) :
    ∃ t, writeBack d v (logicSreg s.sreg v) s = .next t ∧ t.reg d = v ∧ LogicFlagsOutcome (t.reg d) t ∧
      Frame (.reg d :: flagsSVNZ) s t ∧ PcAt s t 1 := by
  obtain ⟨t, ht, hreg, hsreg, hframe, hpc⟩ := writeBack_effect d v (logicSreg s.sreg v) s flagsSVNZ
    (putSVNZ_keeps _ _ _ _)
  exact ⟨t, ht, hreg, hreg ▸ .of_sreg hsreg, hframe, hpc⟩

/-- The same, with the result bit by bit. -/
theorem logic_bits {d : Reg} {v : Byte} {s : State} {bit : Nat → Bool} (h : ∀ n < 8, v.getLsbD n = bit n) :
    ∃ t, writeBack d v (logicSreg s.sreg v) s = .next t ∧ (∀ n < 8, (t.reg d).getLsbD n = bit n) ∧
      LogicFlagsOutcome (t.reg d) t ∧ Frame (.reg d :: flagsSVNZ) s t ∧ PcAt s t 1 := by
  obtain ⟨t, ht, hreg, hflags, hframe, hpc⟩ := logic_effect d v s
  exact ⟨t, ht, hreg ▸ h, hflags, hframe, hpc⟩

/-- 0xFF - K is the complement of K. -/
theorem ff_sub_eq_not (K : Byte) : 0xFF - K = ~~~K := BitVec.allOnes_sub_eq_not K

/-- COM sets C besides the flags of its result (R157). -/
theorem com_effect (d : Reg) (s : State) :
    ∃ t, exec (.com d) s = .next t ∧ (∀ n < 8, (t.reg d).getLsbD n = !(s.reg d).getLsbD n) ∧
      LogicFlagsOutcome (t.reg d) t ∧ t.flag .C = true ∧ Frame (.reg d :: flagsSVNZC) s t ∧ PcAt s t 1 := by
  obtain ⟨t, ht, hreg, hsreg, hframe, hpc⟩ := writeBack_effect d (0xFF - s.reg d) (comSreg s.sreg (0xFF - s.reg d)) s
    flagsSVNZC (putSVNZC_keeps _ _ _ _ _)
  refine ⟨t, ht, fun n hn => ?_, ?_, ?_, hframe, hpc⟩
  · rw [hreg, ff_sub_eq_not]
    simp [hn]
  · rw [hreg]
    simp only [LogicFlagsOutcome, State.flag_of_sreg hsreg, comSreg, getFlag_putFlag, reduceCtorEq, if_false, logicSreg,
      getFlag_putSVNZ]
    exact ⟨trivial, by rw [byte_msb_eq, decide_eq_true_eq], beq_iff_eq, Bool.xor_false _⟩
  · rw [State.flag_of_sreg hsreg, comSreg, getFlag_putFlag, if_pos rfl]

/-- Settles O18: the eight that write a register with the logic flags by `logic_bits`, then COM, TST and SER. -/
theorem logicResult : Obligations.LogicResult := by
  intro s d r K
  simp only [List.forall_mem_cons]
  refine ⟨⟨logic_bits fun n _ => BitVec.getLsbD_and, logic_bits fun n _ => BitVec.getLsbD_and,
    logic_bits fun n _ => BitVec.getLsbD_or, logic_bits fun n _ => BitVec.getLsbD_or,
    logic_bits fun n _ => BitVec.getLsbD_xor, logic_bits fun n _ => BitVec.getLsbD_or, logic_bits fun n hn => ?_, ?_,
    List.forall_mem_nil _⟩, com_effect d s, ?_, ?_⟩
  · rw [ff_sub_eq_not]
    simp [hn]
  · exact logic_bits (v := 0) fun n _ => BitVec.getLsbD_zero
  · obtain ⟨t, ht, hsreg, hframe, hpc⟩ := writeFlags_effect (logicSreg s.sreg (s.reg d)) s flagsSVNZ
      (putSVNZ_keeps _ _ _ _)
    exact ⟨t, ht, .of_sreg hsreg, hframe, hpc⟩
  · obtain ⟨t, ht, hreg, -, hframe, hpc⟩ := writeBack_effect d 0xFF s.sreg s [] fun _ _ => rfl
    exact ⟨t, ht, hreg, hframe, hpc⟩

/-! ### NEG, INC, DEC -/

/-- NEG computes the flags of the subtraction from 0 (R158): a half borrow is a set bit 3 in the operand or the result. -/
theorem negSreg_eq_subSreg (sreg a : Byte) : negSreg sreg a (0x00 - a) = subSreg sreg 0 a false false := by
  have ha := a.isLt
  have h0 : (0 : Byte).toNat = 0 := rfl
  have h80 : (0x80 : Byte).toNat = 128 := rfl
  have hrn : (0x00 - a).toNat = (256 - a.toNat) % 256 := by
    rw [BitVec.toNat_sub]
    rfl
  have hr : subResult 0 a false = 0x00 - a := by
    apply BitVec.eq_of_toNat_eq
    rw [subResult_toNat, hrn, h0]
    simp only [Bool.toNat_false]
    omega
  have half : ((0x00 - a).getLsbD 3 || a.getLsbD 3) = decide ((0 : Byte).toNat % 16 < a.toNat % 16 + false.toNat) := by
    rw [BitVec.getLsbD, BitVec.getLsbD, Nat.testBit_eq_decide_div_mod_eq, Nat.testBit_eq_decide_div_mod_eq, hrn,
      ← Bool.decide_or, h0]
    refine decide_eq_decide.mpr ?_
    simp only [Bool.toNat_false]
    omega
  have overflow : ((0x00 - a) == 0x80) = ((0 : Byte).msb != a.msb && (0x00 - a).msb != (0 : Byte).msb) := by
    rw [byte_msb_eq, byte_msb_eq, byte_msb_eq, hrn, h0, Bool.eq_iff_iff, beq_iff_eq, ← BitVec.toNat_inj, hrn, h80]
    by_cases h : 128 ≤ a.toNat <;> simp [h] <;> omega
  have carry : ((0x00 - a) != 0) = decide ((0 : Byte).toNat < a.toNat + false.toNat) := by
    rw [h0, Bool.eq_iff_iff, bne_iff_ne, ne_eq, ← BitVec.toNat_inj, hrn, h0, decide_eq_true_eq]
    simp only [Bool.toNat_false]
    omega
  rw [negSreg, subSreg, hr, half, overflow, carry]
  simp

theorem inc_effect (d : Reg) (s : State) :
    ∃ t, exec (.inc d) s = .next t ∧ (t.reg d).toNat = ((s.reg d).toNat + 1) % 256 ∧
      (t.flag .V = true ↔ (s.reg d).toNat = 0x7F) ∧ (t.flag .N = true ↔ 128 ≤ (t.reg d).toNat) ∧
      (t.flag .Z = true ↔ (s.reg d).toNat = 0xFF) ∧ SignIsNXorV t ∧ Frame (.reg d :: flagsSVNZ) s t ∧ PcAt s t 1 := by
  obtain ⟨t, ht, hreg, hsreg, hframe, hpc⟩ := writeBack_effect d (s.reg d + 1) (incSreg s.sreg (s.reg d + 1)) s
    flagsSVNZ (putSVNZ_keeps _ _ _ _)
  have ha := (s.reg d).isLt
  have hlast : (0x80 : Byte).toNat = 128 := rfl
  have hr : (s.reg d + 1).toNat = ((s.reg d).toNat + 1) % 256 := BitVec.toNat_add _ _
  refine ⟨t, ht, by rw [hreg, hr], ?_, ?_, ?_, ?_, hframe, hpc⟩ <;>
    simp only [SignIsNXorV, State.flag_of_sreg hsreg, incSreg, getFlag_putSVNZ]
  · rw [beq_iff_eq, ← BitVec.toNat_inj, hr, hlast]
    omega
  · rw [byte_msb_eq, hreg, decide_eq_true_eq]
  · rw [byte_eq_zero_iff, hr]
    omega

theorem dec_effect (d : Reg) (s : State) :
    ∃ t, exec (.dec d) s = .next t ∧ (t.reg d).toNat = ((s.reg d).toNat + 255) % 256 ∧
      (t.flag .V = true ↔ (s.reg d).toNat = 0x80) ∧ (t.flag .N = true ↔ 128 ≤ (t.reg d).toNat) ∧
      (t.flag .Z = true ↔ (s.reg d).toNat = 1) ∧ SignIsNXorV t ∧ Frame (.reg d :: flagsSVNZ) s t ∧ PcAt s t 1 := by
  obtain ⟨t, ht, hreg, hsreg, hframe, hpc⟩ := writeBack_effect d (s.reg d - 1) (decSreg s.sreg (s.reg d - 1)) s
    flagsSVNZ (putSVNZ_keeps _ _ _ _)
  have ha := (s.reg d).isLt
  have hlast : (0x7F : Byte).toNat = 127 := rfl
  have hr : (s.reg d - 1).toNat = ((s.reg d).toNat + 255) % 256 := by
    rw [Nat.add_comm]
    exact BitVec.toNat_sub _ _
  refine ⟨t, ht, by rw [hreg, hr], ?_, ?_, ?_, ?_, hframe, hpc⟩ <;>
    simp only [SignIsNXorV, State.flag_of_sreg hsreg, decSreg, getFlag_putSVNZ]
  · rw [beq_iff_eq, ← BitVec.toNat_inj, hr, hlast]
    omega
  · rw [byte_msb_eq, hreg, decide_eq_true_eq]
  · rw [byte_eq_zero_iff, hr]
    omega

/-- Settles O19: NEG is the subtraction from 0. -/
theorem negateIncrementDecrementResult : Obligations.NegateIncrementDecrementResult := by
  intro s d
  refine ⟨?_, inc_effect d s, dec_effect d s⟩
  have ha := (s.reg d).isLt
  obtain ⟨t, ht, hreg, hsreg, hframe, hpc⟩ := writeBack_effect d (0x00 - s.reg d)
    (negSreg s.sreg (s.reg d) (0x00 - s.reg d)) s flagsHSVNZC (putHSVNZC_keeps _ _ _ _ _ _)
  refine ⟨t, ht, ?_, .of_sreg (hsreg.trans (negSreg_eq_subSreg _ _)), hframe, hpc⟩
  have hr : (0x00 - s.reg d).toNat = (256 - (s.reg d).toNat + 0) % 256 := BitVec.toNat_sub _ _
  rw [hreg, hr]
  omega

end Sys2Proof.Machine
end

section
/-! SUPPORT. The 16-bit arithmetic, the multiplies, the bit instructions, the branches and the moves (spec/40, 41, 42, 44). -/

namespace Sys2Proof.Machine

/-! ### ADIW and SBIW -/

theorem word_msb_eq (x : Word) : x.msb = decide (32768 ≤ x.toNat) := BitVec.msb_eq_decide x

theorem word_eq_zero_iff (x : Word) : (x == 0) = true ↔ x.toNat = 0 := by
  rw [beq_iff_eq, ← BitVec.toNat_inj]
  rfl

/-- Settles O20: C and V are the two ways in which bit 15 of the pair can change. -/
theorem wordImmediateResult : Obligations.WordImmediateResult := by
  intro s d K
  have hK := K.isLt
  have ha := (s.pair d).isLt
  have hpair := State.pair_toNat s d
  have hKw : (K.setWidth 16 : Word).toNat = K.toNat := by
    rw [BitVec.toNat_setWidth]
    exact Nat.mod_eq_of_lt (by omega)
  refine ⟨?_, ?_⟩
  · obtain ⟨t, ht, hreg, hsreg, hframe, hpc⟩ := writeBackPair_effect d (s.pair d + K.setWidth 16)
      (adiwSreg s.sreg (s.pair d) (s.pair d + K.setWidth 16)) s flagsSVNZC (putSVNZC_keeps _ _ _ _ _)
    have hr : (s.pair d + K.setWidth 16).toNat = ((s.pair d).toNat + K.toNat) % 65536 := by
      rw [BitVec.toNat_add, hKw]
    have hres := State.pair_toNat t d
    rw [hreg, hr] at hres
    rw [hpair] at ha hr hres
    refine ⟨t, ht, hres.symm, ?_, ?_, ?_, ?_, ?_, hframe, hpc⟩ <;>
      simp only [SignIsNXorV, State.flag_of_sreg hsreg, adiwSreg, getFlag_putSVNZC, word_eq_zero_iff, word_msb_eq, hr,
        hpair, Bool.and_eq_true, Bool.not_eq_true', decide_eq_true_eq, decide_eq_false_iff_not] <;>
      omega
  · obtain ⟨t, ht, hreg, hsreg, hframe, hpc⟩ := writeBackPair_effect d (s.pair d - K.setWidth 16)
      (sbiwSreg s.sreg (s.pair d) (s.pair d - K.setWidth 16)) s flagsSVNZC (putSVNZC_keeps _ _ _ _ _)
    have hr : (s.pair d - K.setWidth 16).toNat = ((s.pair d).toNat + 65536 - K.toNat) % 65536 := by
      rw [BitVec.toNat_sub, hKw]
      omega
    have hres := State.pair_toNat t d
    rw [hreg, hr] at hres
    rw [hpair] at ha hr hres
    refine ⟨t, ht, hres.symm, ?_, ?_, ?_, ?_, ?_, hframe, hpc⟩ <;>
      simp only [SignIsNXorV, State.flag_of_sreg hsreg, sbiwSreg, getFlag_putSVNZC, word_eq_zero_iff, word_msb_eq, hr,
        hpair, Bool.and_eq_true, Bool.not_eq_true', decide_eq_true_eq, decide_eq_false_iff_not] <;>
      omega

/-! ### Arithmetic on two bytes -/

/-- Settles O21: the second half takes the C of the first, and SBC the Z. -/
theorem twoByteArithmetic : Obligations.TwoByteArithmetic := by
  intro s d0 d1 r0 r1 hd hr
  have l1 := (s.reg d0).isLt
  have l2 := (s.reg d1).isLt
  have l3 := (s.reg r0).isLt
  have l4 := (s.reg r1).isLt
  have keep {u t : State} (hf : Frame (.reg d1 :: flagsHSVNZC) u t) : t.reg d0 = u.reg d0 :=
    hf.reg_eq d0 (by simpa [flagsHSVNZC, flagsSVNZC, flagsSVNZ] using hd.symm)
  have keeps {u : State} (hf : Frame (.reg d0 :: flagsHSVNZC) s u) : u.reg d1 = s.reg d1 ∧ u.reg r1 = s.reg r1 :=
    ⟨hf.reg_eq d1 (by simpa [flagsHSVNZC, flagsSVNZC, flagsSVNZ] using hd),
      hf.reg_eq r1 (by simpa [flagsHSVNZC, flagsSVNZC, flagsSVNZ] using hr)⟩
  refine ⟨?_, ?_⟩
  · obtain ⟨u, hu, hlow, ⟨hC, -⟩, hframe, -⟩ := addition_effect d0 (s.reg r0) false s
    obtain ⟨t, ht, hhigh, ⟨hC', -⟩, hframe', -⟩ := addition_effect d1 (u.reg r1) (u.flag .C) u
    obtain ⟨k1, k2⟩ := keeps hframe
    refine ⟨u, t, hu, ht, ?_, ?_⟩
    · rw [keep hframe', hlow, hhigh, k1, k2]
      cases hc : u.flag .C <;> simp [hc] at hC ⊢ <;> omega
    · rw [hC', k1, k2]
      cases hc : u.flag .C <;> simp [hc] at hC ⊢ <;> omega
  · obtain ⟨u, hu, hlow, ⟨hC, -, -, -, hZ, -⟩, hframe, -⟩ := subtraction_effect d0 (s.reg r0) false false s
    obtain ⟨t, ht, hhigh, ⟨hC', -, -, -, hZ', -⟩, hframe', -⟩ := subtraction_effect d1 (u.reg r1) (u.flag .C) true u
    obtain ⟨k1, k2⟩ := keeps hframe
    rw [Bool.not_false, Bool.true_or] at hZ
    rw [Bool.not_true, Bool.false_or] at hZ'
    refine ⟨u, t, hu, ht, ?_, ?_, ?_⟩
    · rw [keep hframe', hlow, hhigh, k1, k2]
      cases hc : u.flag .C <;> simp [hc] at hC ⊢ <;> omega
    · rw [hC', k1, k2]
      cases hc : u.flag .C <;> simp [hc] at hC ⊢ <;> omega
    · rw [hZ', hZ, k1, k2]
      cases hc : u.flag .C <;> simp [hc] at hC ⊢ <;> omega

/-! ### Multiplies -/

/-- The integer an operand stands for, written out. -/
theorem Sign.value_signed (x : Byte) :
    Sign.value .signed x = if 128 ≤ x.toNat then (x.toNat : Int) - 256 else x.toNat := byte_toInt x

/-- A 16-bit pattern of an integer, and bit 15 of it. -/
theorem ofInt16_toNat (p : Int) : ((BitVec.ofInt 16 p).toNat : Int) = p % 65536 := by
  rw [BitVec.toNat_ofInt]
  exact Int.toNat_of_nonneg (Int.emod_nonneg _ (by decide))

theorem fractional_toNat (p : Int) : ((fractional (BitVec.ofInt 16 p)).toNat : Int) = 2 * p % 65536 := by
  have h := ofInt16_toNat p
  have hs : (fractional (BitVec.ofInt 16 p)).toNat = (BitVec.ofInt 16 p).toNat * 2 % 65536 := by
    rw [fractional, BitVec.toNat_shiftLeft, Nat.shiftLeft_eq]
  rw [hs]
  omega

/-- The end of a multiply of two operands whose product is 0 wherever what R1:R0 get is (R180). -/
theorem multiply_effect {p : Int} {r : Word} (s : State) (hz : r.toNat = 0 ↔ p = 0) :
    ∃ t, writeProduct (BitVec.ofInt 16 p) r s = .next t ∧
      (((t.reg 1).toNat * 256 + (t.reg 0).toNat : Nat) : Int) = r.toNat ∧
      (t.flag .C = true ↔ 32768 ≤ p % 65536) ∧ (t.flag .Z = true ↔ p = 0) ∧
      Frame [.reg 0, .reg 1, .flag .C, .flag .Z] s t ∧ PcAt s t 1 := by
  obtain ⟨t, ht, hreg, hsreg, hframe, hpc⟩ := writeProduct_effect (BitVec.ofInt 16 p) r s
  have h16 := ofInt16_toNat p
  refine ⟨t, ht, ?_, ?_, ?_, hframe, hpc⟩
  · rw [← State.pair_zero_toNat, hreg]
  · rw [State.flag_of_sreg hsreg, mulSreg, getFlag_putFlag, if_pos rfl, word_msb_eq, decide_eq_true_eq]
    omega
  · rw [State.flag_of_sreg hsreg, mulSreg, getFlag_putFlag, if_neg (by decide), getFlag_putFlag, if_pos rfl,
      word_eq_zero_iff, hz]

/-- A product of two bytes is not 2^15: each factor would be a power of 2, and at most 2^7. -/
theorem byte_mul_ne (a b : Byte) : a.toNat * b.toNat ≠ 32768 := by
  intro h
  have hpow {x y : Nat} (hx : x < 256) (hxy : x * y = 2 ^ 15) : x ≤ 128 := by
    obtain ⟨k, -, rfl⟩ := (Nat.dvd_prime_pow Nat.prime_two).1 ⟨y, hxy.symm⟩
    have hk : k < 8 := (Nat.pow_lt_pow_iff_right (by decide)).1 (hx.trans_eq (by decide : 256 = 2 ^ 8))
    exact Nat.pow_le_pow_right (by decide) (by omega : k ≤ 7)
  have ha := hpow a.isLt h
  have hb := hpow b.isLt ((Nat.mul_comm _ _).trans h)
  have := Nat.mul_le_mul ha hb
  omega

/-- How far a product is from 0, by the ranges of its operands. -/
theorem mul_bounds {x y m n : Int} (hx : -m ≤ x ∧ x ≤ m) (hy : -n ≤ y ∧ y ≤ n) : -(m * n) ≤ x * y ∧ x * y ≤ m * n :=
  abs_le.1 (abs_mul x y ▸ mul_le_mul (abs_le.2 hx) (abs_le.2 hy) (abs_nonneg y) (by omega))

/-- The product of two operands is 0 wherever its low 15 bits are (R180). -/
theorem product_range (gd gr : Sign) (a b : Byte) :
    -32768 < gd.value a * gr.value b ∧ gd.value a * gr.value b < 65536 ∧ gd.value a * gr.value b ≠ 32768 := by
  have unsigned (x : Byte) : -255 ≤ Sign.value .unsigned x ∧ Sign.value .unsigned x ≤ 255 := by
    have hx := x.isLt
    simp only [Sign.value]
    omega
  have signed (x : Byte) : -128 ≤ Sign.value .signed x ∧ Sign.value .signed x ≤ 128 := by
    have hx := x.isLt
    rw [Sign.value_signed]
    split_ifs <;> omega
  cases gd <;> cases gr
  · have hne : Sign.value .unsigned a * Sign.value .unsigned b ≠ 32768 := by
      change (a.toNat : Int) * (b.toNat : Int) ≠ 32768
      exact_mod_cast byte_mul_ne a b
    have h0 : 0 ≤ Sign.value .unsigned a * Sign.value .unsigned b :=
      mul_nonneg (Int.natCast_nonneg _) (Int.natCast_nonneg _)
    have := mul_bounds (unsigned a) (unsigned b)
    omega
  · have := mul_bounds (unsigned a) (signed b)
    omega
  · have := mul_bounds (signed a) (unsigned b)
    omega
  · have := mul_bounds (signed a) (signed b)
    omega

/-- MUL, MULS and MULSU. -/
theorem integerProduct_effect (gd gr : Sign) (a b : Byte) (s : State) :
    ∃ t, writeProduct (product gd gr a b) (product gd gr a b) s = .next t ∧
      (((t.reg 1).toNat * 256 + (t.reg 0).toNat : Nat) : Int) = gd.value a * gr.value b % 65536 ∧
      (t.flag .C = true ↔ 32768 ≤ gd.value a * gr.value b % 65536) ∧ (t.flag .Z = true ↔ gd.value a * gr.value b = 0) ∧
      Frame [.reg 0, .reg 1, .flag .C, .flag .Z] s t ∧ PcAt s t 1 := by
  have hp := ofInt16_toNat (gd.value a * gr.value b)
  have hr := product_range gd gr a b
  obtain ⟨t, ht, hres, hrest⟩ := multiply_effect (p := gd.value a * gr.value b) (r := product gd gr a b) s (by
    rw [product]
    omega)
  exact ⟨t, ht, hres.trans hp, hrest⟩

/-- FMUL, FMULS and FMULSU. -/
theorem fractionalProduct_effect (gd gr : Sign) (a b : Byte) (s : State) :
    ∃ t, writeProduct (product gd gr a b) (fractional (product gd gr a b)) s = .next t ∧
      (((t.reg 1).toNat * 256 + (t.reg 0).toNat : Nat) : Int) = 2 * (gd.value a * gr.value b) % 65536 ∧
      (t.flag .C = true ↔ 32768 ≤ gd.value a * gr.value b % 65536) ∧ (t.flag .Z = true ↔ gd.value a * gr.value b = 0) ∧
      Frame [.reg 0, .reg 1, .flag .C, .flag .Z] s t ∧ PcAt s t 1 := by
  have hp := fractional_toNat (gd.value a * gr.value b)
  have hr := product_range gd gr a b
  obtain ⟨t, ht, hres, hrest⟩ := multiply_effect (p := gd.value a * gr.value b) (r := fractional (product gd gr a b)) s
    (by
      rw [product]
      omega)
  exact ⟨t, ht, hres.trans hp, hrest⟩

/-- Settles O22: each multiply reads its operands with one of the two signs. -/
theorem multiplyResult : Obligations.MultiplyResult := by
  intro s d r u g
  have hu (i : Reg) : u i = Sign.value .unsigned (s.reg i) := rfl
  have hg (i : Reg) : g i = Sign.value .signed (s.reg i) := (byte_toInt (s.reg i)).symm
  clear_value u g
  simp only [List.forall_mem_cons, hu, hg]
  exact ⟨integerProduct_effect .unsigned .unsigned _ _ s, integerProduct_effect .signed .signed _ _ s,
    integerProduct_effect .signed .unsigned _ _ s, fractionalProduct_effect .unsigned .unsigned _ _ s,
    fractionalProduct_effect .signed .signed _ _ s, fractionalProduct_effect .signed .unsigned _ _ s,
    List.forall_mem_nil _⟩

/-! ### Shifts and bits -/

/-- The end of every right shift. -/
theorem shiftRight_effect (d : Reg) (v : Byte) (s : State) :
    ∃ t, shiftBack d v (shiftRightSreg s.sreg (s.reg d) v) s = .next t ∧ t.reg d = v ∧
      ShiftRightOutcome (s.reg d) (t.reg d) t ∧ Frame (.reg d :: flagsSVNZC) s t ∧ PcAt s t 1 := by
  obtain ⟨t, ht, hreg, hsreg, hframe, hpc⟩ := writeBack_effect d v (shiftRightSreg s.sreg (s.reg d) v) s flagsSVNZC
    (putSVNZC_keeps _ _ _ _ _)
  exact ⟨t, ht, hreg, hreg ▸ .of_sreg hsreg, hframe, hpc⟩

/-- A register written and the pc one word on. -/
theorem setReg_advance (d : Reg) (v : Byte) (s : State) :
    ((s.setReg d v).advance 1).reg d = v ∧ Frame [.reg d] s ((s.setReg d v).advance 1) ∧
      PcAt s ((s.setReg d v).advance 1) 1 :=
  ⟨State.reg_setReg_self s d v, (Frame.setReg s d v).trans (.advance _ 1), .advance (s.setReg d v) 1⟩

/-- A bit entering at the top of a byte shifted right. -/
theorem shiftIn_toNat (x : BitVec 1) (a : Byte) :
    (x ++ a.extractLsb' 1 7 : Byte).toNat = a.toNat / 2 + 128 * x.toNat := by
  have ha := a.isLt
  refine (append_toNat x (a.extractLsb' 1 7)).trans ?_
  rw [BitVec.extractLsb'_toNat, Nat.shiftRight_eq_div_pow]
  omega

theorem nibbles_toNat (a : Byte) :
    (a.extractLsb' 0 4 ++ a.extractLsb' 4 4 : Byte).toNat = a.toNat % 16 * 16 + a.toNat / 16 := by
  have ha := a.isLt
  refine (append_toNat (a.extractLsb' 0 4) (a.extractLsb' 4 4)).trans ?_
  simp only [BitVec.extractLsb'_toNat, Nat.shiftRight_eq_div_pow]
  omega

/-- Settles O24: the shifts by `shiftRight_effect`; SWAP and BLD write their register only, BST writes T only. -/
theorem shiftAndBitResult : Obligations.ShiftAndBitResult := by
  intro s d b
  refine ⟨?_, ?_, ?_, ?_⟩
  · simp only [List.forall_mem_cons]
    refine ⟨?_, ?_, ?_, List.forall_mem_nil _⟩
    · obtain ⟨t, ht, hreg, hout, hframe, hpc⟩ := shiftRight_effect d (s.reg d >>> 1) s
      refine ⟨t, ht, ?_, hout, hframe, hpc⟩
      rw [hreg, BitVec.toNat_ushiftRight, Nat.shiftRight_eq_div_pow]
      rfl
    · obtain ⟨t, ht, hreg, hout, hframe, hpc⟩ := shiftRight_effect d
        (BitVec.ofBool (s.flag .C) ++ (s.reg d).extractLsb' 1 7) s
      refine ⟨t, ht, ?_, hout, hframe, hpc⟩
      rw [hreg, shiftIn_toNat, BitVec.toNat_ofBool]
    · obtain ⟨t, ht, hreg, hout, hframe, hpc⟩ := shiftRight_effect d
        ((s.reg d).extractLsb' 7 1 ++ (s.reg d).extractLsb' 1 7) s
      refine ⟨t, ht, ?_, hout, hframe, hpc⟩
      rw [hreg, shiftIn_toNat, ← byte_msb_eq_getLsbD, byte_msb_eq, BitVec.extractLsb'_toNat,
        Nat.shiftRight_eq_div_pow]
      have ha := (s.reg d).isLt
      by_cases h : 128 ≤ (s.reg d).toNat <;> simp [h] <;> omega
  · obtain ⟨hreg, hframe, hpc⟩ := setReg_advance d ((s.reg d).extractLsb' 0 4 ++ (s.reg d).extractLsb' 4 4) s
    exact ⟨_, rfl, by rw [hreg, nibbles_toNat], hframe, hpc⟩
  · obtain ⟨hflag, hframe, hpc⟩ := putFlagNext_effect .T ((s.reg d).getLsbD b) s
    exact ⟨_, rfl, hflag, hframe, hpc⟩
  · obtain ⟨hreg, hframe, hpc⟩ := setReg_advance d (putBit (s.reg d) b.val (s.flag .T)) s
    exact ⟨_, rfl, fun n _ => by rw [hreg, getLsbD_putBit _ _ _ _ b.isLt], hframe, hpc⟩

/-! ### Single flags -/

/-- Settles O25: all but SEI and BSET 7 write one named flag (`putFlagNext_effect`), SEI also `irq_inhibit`. -/
theorem flagSetAndClear : Obligations.FlagSetAndClear := by
  intro s
  have one {i : Instr} (f : Flag) (v : Bool) (hi : exec i s = .next (putFlagNext f v s)) :
      ∃ t, exec i s = .next t ∧ t.flag f = v ∧ Frame [.flag f] s t ∧ PcAt s t 1 :=
    ⟨_, hi, putFlagNext_effect f v s⟩
  have bset (f : Flag) (hf : f ≠ .I) : exec (.bset f.index) s = .next (putFlagNext f true s) := execBset_flag f s hf
  have sei : ∃ t, exec .sei s = .next t ∧ t.flag .I = true ∧ t.irqInhibit = true ∧ Frame [.flag .I, .inhibit] s t ∧
      PcAt s t 1 := by
    obtain ⟨hflag, hframe, hpc⟩ := putFlagNext_effect .I true s
    exact ⟨_, rfl, hflag, rfl, hframe.trans (Frame.setInhibit _ true), hpc⟩
  refine ⟨?_, ?_⟩
  · simp only [List.forall_mem_cons]
    exact ⟨one .C true (bset .C (by decide)), one .Z true (bset .Z (by decide)), one .N true (bset .N (by decide)),
      one .V true (bset .V (by decide)), one .S true (bset .S (by decide)), one .H true (bset .H (by decide)),
      one .T true (bset .T (by decide)), one .C false rfl, one .Z false rfl, one .N false rfl, one .V false rfl,
      one .S false rfl, one .H false rfl, one .T false rfl, one .I false rfl, one .C true rfl, one .C false rfl,
      one .Z true rfl, one .Z false rfl, one .N true rfl, one .N false rfl, one .V true rfl, one .V false rfl,
      one .S true rfl, one .S false rfl, one .H true rfl, one .H false rfl, one .T true rfl, one .T false rfl,
      one .I false rfl, List.forall_mem_nil _⟩
  · simp only [List.forall_mem_cons]
    exact ⟨sei, sei, List.forall_mem_nil _⟩

/-! ### Branches -/

/-- Settles O26: every one is a branch on a flag or its complement. -/
theorem conditionalBranchTarget : Obligations.ConditionalBranchTarget := by
  intro s b k
  have on {i : Instr} (c : Bool) (hi : exec i s = .next (s.branch c k.toInt)) :
      ∃ t, exec i s = .next t ∧ Frame [] s t ∧ PcAt s t (if c then k.toInt + 1 else 1) :=
    ⟨_, hi, branch_effect s c k.toInt⟩
  simp only [List.forall_mem_cons]
  exact ⟨on _ rfl, on _ rfl, on _ rfl, on _ rfl, on _ rfl, on _ rfl, on _ rfl, on _ rfl, on _ rfl, on _ rfl, on _ rfl,
    on _ rfl, on _ rfl, on _ rfl, on _ rfl, on _ rfl, on _ rfl, on _ rfl, on _ rfl, on _ rfl, List.forall_mem_nil _⟩

/-- After a comparison Z says equality, C the unsigned order and S the signed order (R232). -/
theorem SubFlagsOutcome.order {a b : Byte} {t : State} (h : SubFlagsOutcome a b false true t) :
    t.flag .Z = decide (a = b) ∧ t.flag .C = decide (a.toNat < b.toNat) ∧ t.flag .S = decide (a.toInt < b.toInt) := by
  obtain ⟨hC, -, hV, hN, hZ, hS⟩ := h
  have ha := a.isLt
  have hb := b.isLt
  rw [byte_toInt, byte_toInt] at hV ⊢
  simp only [Bool.toNat_false, and_true] at hC hV hN hZ
  refine ⟨?_, ?_, ?_⟩
  · rw [Bool.eq_iff_iff, hZ, decide_eq_true_eq, ← BitVec.toNat_inj]
    omega
  · rw [Bool.eq_iff_iff, hC, decide_eq_true_eq, Nat.add_zero]
  · rw [hS, Bool.eq_iff_iff, decide_eq_true_eq]
    cases hn : t.flag .N <;> cases hv : t.flag .V <;> simp [hn, hv] at hN hV ⊢ <;> omega

/-- Settles O27: the flags that the branches name are those of the comparison. -/
theorem compareThenBranch : Obligations.CompareThenBranch := by
  intro s u d r k hu
  obtain ⟨t, ht, hout, -, -⟩ := comparison_effect d (s.reg r) false false s
  obtain rfl : t = u := Host.Outcome.next.inj (ht.symm.trans hu)
  obtain ⟨hZ, hC, hS⟩ := hout.order
  have on {i : Instr} {c : Bool} (c' : Bool) (hi : exec i t = .next (t.branch c' k.toInt)) (hc : c' = c) :
      ∃ w, exec i t = .next w ∧ Frame [] t w ∧ PcAt t w (if c then k.toInt + 1 else 1) :=
    hc ▸ ⟨_, hi, branch_effect t c' k.toInt⟩
  simp only [List.forall_mem_cons]
  refine ⟨on _ rfl hZ, on _ rfl ?_, on _ rfl hC, on _ rfl ?_, on _ rfl hS, on _ rfl ?_, List.forall_mem_nil _⟩
  · rw [hZ, decide_not]
  · rw [hC, ← decide_not]
    exact decide_eq_decide.mpr not_lt
  · rw [hS, ← decide_not]
    exact decide_eq_decide.mpr not_lt

/-! ### Moves -/

/-- Settles O34: a register or a pair is written and read back. -/
theorem moveResult : Obligations.MoveResult := by
  intro s d r K
  obtain ⟨hmov, fmov, pmov⟩ := setReg_advance d (s.reg r) s
  obtain ⟨hldi, fldi, pldi⟩ := setReg_advance d K s
  refine ⟨⟨_, rfl, hmov, fmov, pmov⟩, ⟨_, rfl, ?_, ?_, (Frame.setPair s d _).trans (.advance _ 1),
    .advance (s.setPair d _) 1⟩, ⟨_, rfl, hldi, fldi, pldi⟩⟩
  · exact (State.reg_setPair_low s d (s.pair r)).trans (word_low _ _)
  · exact (State.reg_setPair_high s d (s.pair r)).trans (word_high _ _)

end Sys2Proof.Machine
end

section
/-! SUPPORT. DES, the skips, the jumps, the calls and the returns (spec/41_multiply_des.md section 4, spec/42_branch.md). -/

namespace Sys2Proof.Machine

/-! ### DES -/

/-- The state after DES K, where `DesRound` is supplied. -/
def desStep (s : State) (K : BitVec 4) : State :=
  (setDesBlock s (Config.desRound.round (desBlock s) K (s.flag .H))).advance 1

theorem exec_des {s : State} (h : s.cfg.hasDesRound = true) (K : BitVec 4) : exec (.des K) s = .next (desStep s K) :=
  if_pos h

theorem desStep_block (s : State) (K : BitVec 4) :
    desBlock (desStep s K) = Config.desRound.round (desBlock s) K (s.flag .H) :=
  desBlock_setDesBlock s _

theorem desStep_frame (s : State) (K : BitVec 4) : Frame lowRegs s (desStep s K) :=
  ((setDesBlock_frame s _).trans (.advance _ 1)).mono (by simp)

theorem desStep_pc (s : State) (K : BitVec 4) : PcAt s (desStep s K) 1 :=
  .of_eq (setDesBlock_cfg s _) (setDesBlock_pc s _) (.advance _ 1)

theorem notMem_lowRegs {p : Part} (h : ∀ i, p ≠ .reg i) : p ∉ lowRegs := by
  simp only [lowRegs, List.mem_map, not_exists, not_and]
  exact fun i _ e => h _ e.symm

/-- What a list of rounds leaves in the block. -/
def desRounds (h : Bool) (ks : List (BitVec 4)) (block : BitVec 128) : BitVec 128 :=
  ks.foldl (fun b k => Config.desRound.round b k h) block

/-- Rounds one after another: the block goes through them, and H stays the same throughout. -/
theorem execAll_des (k : BitVec 4) (ks : List (BitVec 4)) {s : State} (h : s.cfg.hasDesRound = true) :
    ∃ t, execAll ((k :: ks).map .des) s = .next t ∧ desBlock t = desRounds (s.flag .H) (k :: ks) (desBlock s) ∧
      Frame lowRegs s t ∧ PcAt s t (ks.length + 1) := by
  have first : execAll ((k :: ks).map .des) s = execAll (ks.map .des) (desStep s k) := by
    rw [List.map_cons, execAll, exec_des h]
  have hcfg : (desStep s k).cfg = s.cfg := (desStep_frame s k).cfg_eq (notMem_lowRegs fun _ => nofun)
  have hflag : (desStep s k).flag .H = s.flag .H := desStep_frame s k (.flag .H) (notMem_lowRegs fun _ => nofun)
  induction ks generalizing s k with
  | nil => exact ⟨_, first, desStep_block s k, desStep_frame s k, desStep_pc s k⟩
  | cons k' ks ih =>
    have h' : (desStep s k).cfg.hasDesRound = true := by rw [hcfg]; exact h
    obtain ⟨t, ht, hblock, hframe, hpc⟩ := ih k' h' (by rw [List.map_cons, execAll, exec_des h'])
      ((desStep_frame _ k').cfg_eq (notMem_lowRegs fun _ => nofun))
      (desStep_frame _ k' (.flag .H) (notMem_lowRegs fun _ => nofun))
    refine ⟨t, first.trans ht, ?_, (desStep_frame s k).trans_same hframe, ?_⟩
    · rw [hblock, hflag, desStep_block]
      rfl
    · have hsum := (desStep_pc s k).trans hcfg hpc
      rwa [add_comm, ← Nat.cast_succ] at hsum

/-- Settles O23: one round by `exec_des`; sixteen by `execAll_des`, and the property R187 states of `DesRound`. -/
theorem desAppliesTheRound : Obligations.DesAppliesTheRound := by
  intro s K
  refine ⟨fun h => ?_, fun h => ?_, fun h => if_neg (by simp [h])⟩
  · refine ⟨desStep s K, desBlock s, exec_des h K, desBlock_byte s, fun i hi => ?_, desStep_frame s K, desStep_pc s K⟩
    exact (setDesBlock_reg s _ i).trans (if_pos hi)
  · obtain ⟨t, ht, hblock, hframe, hpc⟩ := execAll_des 0 ((List.range' 1 15).map (BitVec.ofNat 4)) h
    refine ⟨t, ht, ?_, hframe, hpc⟩
    have hcrypt := Config.desRound.crypts (desBlock s) (s.flag .H)
    rw [(desBlock_halves s).1, (desBlock_halves s).2] at hcrypt
    rw [← (desBlock_halves t).1, hblock]
    exact hcrypt

/-! ### Skips -/

/-- A read of an I/O location, and then no change but of the pc. -/
theorem IoReadEffect.extend {A : BitVec 6} {s t u : State} (h : IoReadEffect A s t) (f : Frame [] t u) :
    IoReadEffect A s u := by
  unfold IoReadEffect at h ⊢
  split_ifs at h ⊢ with hd
  · obtain ⟨he, hr, hframe⟩ := h
    exact ⟨(f .events List.not_mem_nil).trans he, (f .draws List.not_mem_nil).trans hr,
      (hframe.trans f).mono (by simp)⟩
  · exact h.trans f

theorem ioRead_keeps (A : BitVec 6) (s : State) :
    (ioRead A s).2.cfg = s.cfg ∧ ∀ a, (ioRead A s).2.progWord a = s.progWord a := by
  unfold ioRead
  cases ioTarget s.cfg A <;> exact ⟨rfl, fun _ => rfl⟩

/-- What a skip does (R191), as the obligation states it. -/
def Skips (s : State) (i : Instr) (cond : Bool) (effect : State → Prop) : Prop :=
  (cond = false → ∃ t, exec i s = .next t ∧ effect t ∧ PcAt s t 1) ∧
  (cond = true → s.pc.toNat + 1 ≤ s.cfg.flashEnd → ∃ t, exec i s = .next t ∧ effect t ∧
    PcAt s t (if isTwoWord (s.progWord (s.pc.toNat + 1)) = true ∧ s.cfg.core ≠ .AVRrc then 3 else 2)) ∧
  (cond = true → s.cfg.flashEnd < s.pc.toNat + 1 → exec i s = .fault (.fetchOutOfRange (s.pc.toNat + 1)))

theorem skipLength_eq (c : Config) (w : Word) :
    skipLength c w = if isTwoWord w = true ∧ c.core ≠ .AVRrc then 2 else 1 := by
  simp only [skipLength, Bool.and_eq_true, bne_iff_ne, and_comm]

/-- A skip after an operation that leaves the pc, the configuration and program memory. -/
theorem skips_of_exec {s u : State} {i : Instr} {cond : Bool} {effect : State → Prop}
    (hi : exec i s = finish (skip cond u)) (hc : u.cfg = s.cfg) (hp : u.pc = s.pc)
    (hw : ∀ a, u.progWord a = s.progWord a) (he : ∀ n, effect (u.advance n)) : Skips s i cond effect := by
  have hpc (n : Nat) : PcAt s (u.advance n) n := .of_eq hc hp (.advance u n)
  refine ⟨?_, ?_, ?_⟩
  · rintro rfl
    exact ⟨_, by rw [hi, skip_of_false, finish_ok], he 1, hpc 1⟩
  · rintro rfl hend
    refine ⟨_, by rw [hi, skip_of_true, hp, hc, if_pos hend, finish_ok], he _, ?_⟩
    have h := hpc (1 + skipLength s.cfg (u.progWord (s.pc.toNat + 1)))
    rw [hw, skipLength_eq] at h
    rw [hw, skipLength_eq]
    split_ifs at h ⊢ <;> exact h
  · rintro rfl hend
    rw [hi, skip_of_true, hp, hc, if_neg (by omega), finish_error]

/-- Settles O28: a skip on a register looks at nothing else, one on an I/O location after the read of it. -/
theorem skipTarget : Obligations.SkipTarget := by
  intro s d r A b
  obtain ⟨hbyte, hread, hpc⟩ := ioRead_effect (A.setWidth 6) s
  obtain ⟨hcfg, hword⟩ := ioRead_keeps (A.setWidth 6) s
  have plain {i : Instr} {cond : Bool} (hi : exec i s = finish (skip cond s)) :
      Skips s i cond (Frame [] s) :=
    skips_of_exec hi rfl rfl (fun _ => rfl) fun n => .advance s n
  have io {i : Instr} {cond : Bool} (hi : exec i s = finish (skip cond (ioRead (A.setWidth 6) s).2)) :
      Skips s i cond (IoReadEffect (A.setWidth 6) s) :=
    skips_of_exec hi hcfg hpc hword fun n => hread.extend (.advance _ n)
  rw [← hbyte]
  exact ⟨plain rfl, plain rfl, plain rfl, io rfl, io rfl⟩

/-! ### Jumps -/

/-- The target of EIJMP and EICALL as a number (R195, R199). -/
theorem eindTarget_toNat (s : State) : (eindTarget s).toNat =
    ((if s.cfg.hasEind then s.eind.toNat % 64 else 0) * 65536 + ((s.reg 31).toNat * 256 + (s.reg 30).toNat)) %
      2 ^ s.cfg.pcBits.width := by
  rw [eindTarget, pcTrunc_toNat, pc_toNat, State.pair_z_toNat, BitVec.extractLsb'_toNat, Nat.shiftRight_zero]
  split_ifs <;> rfl

/-- Z as a program address (R194, D25). -/
theorem zTarget_toNat (s : State) :
    ((s.pair 30).setWidth 22 : PcWord).toNat = (s.reg 31).toNat * 256 + (s.reg 30).toNat := by
  have hz := (s.pair 30).isLt
  rw [BitVec.toNat_setWidth, ← State.pair_z_toNat]
  exact Nat.mod_eq_of_lt (by omega)

/-- Settles O29: each jump replaces the pc by its target. -/
theorem jumpTarget : Obligations.JumpTarget := by
  intro s
  exact ⟨fun k => ⟨_, rfl, .setPc s _, pcAdd_toNat s.cfg s.pc _⟩, ⟨_, rfl, .setPc s _, zTarget_toNat s⟩,
    ⟨_, rfl, .setPc s _, eindTarget_toNat s⟩, fun k => ⟨_, rfl, .setPc s _, pcTrunc_toNat s.cfg k⟩⟩

/-! ### Calls and returns -/

/-- The return address of a call as a number (R32). -/
theorem returnAddress_toNat (c : Config) (pc : PcWord) (n : Nat) :
    (pcAdd c pc n).toNat = (pc.toNat + n) % 2 ^ wrapWidth c := by
  have h := pcAdd_toNat c pc n
  exact_mod_cast h

/-- Settles O30: the push by `call_effect`; the target is that of the jump with the same operands. -/
theorem callEffect : Obligations.CallEffect := by
  intro s h z eind top wrap k12 k22
  have calls {i : Instr} {n : Nat} {target : PcWord} {v : Int}
      (hi : exec i s = finish (call (pcAdd s.cfg s.pc n) target s)) (hv : (target.toNat : Int) = v) :
      ∃ ret u t, exec i s = .next t ∧ ret.toNat = (s.pc.toNat + n) % wrap ∧
        PushedAll (returnBytes s.cfg ret) s u ∧ Frame [] u t ∧ (t.pc.toNat : Int) = v := by
    obtain ⟨u, hu, hpush⟩ := call_effect (pcAdd s.cfg s.pc n) target s h
    exact ⟨_, u, _, by rw [hi, hu, finish_ok], returnAddress_toNat s.cfg s.pc n, hpush, .setPc u target, hv⟩
  simp only [List.forall_mem_cons]
  refine ⟨calls (n := 1) rfl ?_, calls (n := 1) rfl (congrArg _ (zTarget_toNat s)),
    calls (n := 1) rfl (congrArg _ (eindTarget_toNat s)), calls (n := 2) rfl (congrArg _ (pcTrunc_toNat s.cfg k22)),
    List.forall_mem_nil _⟩
  rw [pcAdd_toNat, add_assoc]

/-- Settles O31: by `return_effect`. -/
theorem returnEffect : Obligations.ReturnEffect := by
  intro s h
  obtain ⟨bytes, v, u, he, hlen, hpop, hv⟩ := return_effect s h
  exact ⟨bytes, u, _, finish_eq_next.2 he, hlen, hpop, .setPc u v, hv⟩

/-- Settles O32: by `interruptReturn_effect`. -/
theorem interruptReturnEffect : Obligations.InterruptReturnEffect := by
  intro s h
  obtain ⟨bytes, u, t, he, hrest⟩ := interruptReturn_effect s h
  exact ⟨bytes, u, t, finish_eq_next.2 he, hrest⟩

end Sys2Proof.Machine
end

section
/-! SUPPORT. A stack in internal SRAM (spec/20_memory.md R76 to R79): what is pushed is popped in the opposite order, and SP
comes back. -/

namespace Sys2Proof.Machine

/-! ### The slots -/

theorem spTop_bounds (c : Config) : 256 ≤ 2 ^ c.spBits.width := by
  cases c.spBits <;> decide

section
variable {s : State} (hsp : s.sp.toNat < 2 ^ s.cfg.spBits.width)
include hsp

theorem pushSlot_lt (j : Nat) : pushSlot s j < 2 ^ s.cfg.spBits.width := by
  cases j with
  | zero => exact hsp
  | succ j => exact Nat.mod_lt _ (Nat.two_pow_pos _)

/-- Going up `k` slots from one undoes `k` pushes. -/
theorem pushSlot_add_up (m k : Nat) : (pushSlot s (m + k) + k) % 2 ^ s.cfg.spBits.width = pushSlot s m := by
  induction k with
  | zero => exact Nat.mod_eq_of_lt (pushSlot_lt hsp m)
  | succ k ih =>
    have hpos := spTop_bounds s.cfg
    have hslot := pushSlot_lt hsp (m + k)
    have hone : (pushSlot s (m + k + 1) + 1) % 2 ^ s.cfg.spBits.width = pushSlot s (m + k) := by
      have hback : pushSlot s (m + k) + 2 ^ s.cfg.spBits.width - 1 + 1 =
          pushSlot s (m + k) + 2 ^ s.cfg.spBits.width := by omega
      rw [pushSlot, Nat.mod_add_mod, hback, Nat.add_mod_right, Nat.mod_eq_of_lt hslot]
    calc (pushSlot s (m + k + 1) + (k + 1)) % 2 ^ s.cfg.spBits.width
        = ((pushSlot s (m + k + 1) + 1) % 2 ^ s.cfg.spBits.width + k) % 2 ^ s.cfg.spBits.width := by
          rw [Nat.mod_add_mod]
          congr 1
          omega
      _ = (pushSlot s (m + k) + k) % 2 ^ s.cfg.spBits.width := by rw [hone]
      _ = pushSlot s m := ih

/-- Fewer than 256 pushes use different slots. -/
theorem pushSlot_ne {i j : Nat} (hij : i < j) (hj : j < 256) : pushSlot s i ≠ pushSlot s j := by
  intro he
  have hup := pushSlot_add_up hsp i (j - i)
  have htop := spTop_bounds s.cfg
  have hlt := pushSlot_lt hsp i
  rw [Nat.add_sub_cancel' hij.le, ← he] at hup
  by_cases hc : pushSlot s i + (j - i) < 2 ^ s.cfg.spBits.width
  · rw [Nat.mod_eq_of_lt hc] at hup
    omega
  · rw [Nat.mod_eq_sub_mod (by omega), Nat.mod_eq_of_lt (by omega)] at hup
    omega

end

/-! ### Pushing -/

theorem Pushed.sram {v : Byte} {s t : State} (h : Pushed v s t) (hc : classify s.cfg s.sp.toNat = .sram s.sp.toNat) :
    t.sram (pushSlot s 0) = some v ∧ Frame [.sp, .sram (pushSlot s 0)] s t ∧ t.sp.toNat = pushSlot s 1 := by
  obtain ⟨u, hstored, hsp, hframe⟩ := h
  unfold Stored at hstored
  rw [hc] at hstored
  obtain ⟨hv, hf⟩ := hstored
  exact ⟨(hframe.sram_eq _ (by simp)).trans hv, (hf.trans hframe).mono (by simp [pushSlot]), hsp⟩

/-- The slots that a list of pushes writes. -/
def slots (s : State) (n : Nat) : List Part := (List.range n).map fun j => .sram (pushSlot s j)

theorem mem_slots {s : State} {n : Nat} {p : Part} : p ∈ slots s n ↔ ∃ j < n, .sram (pushSlot s j) = p := by
  simp [slots]

/-- Pushed bytes stand in their slots, the first at SP; nothing else but SP has changed. -/
theorem PushedAll.sram {vs : List Byte} {s u : State} (h : PushedAll vs s u) (hsp : s.sp.toNat < 2 ^ s.cfg.spBits.width)
    (hlen : vs.length < 256) (hc : ∀ j < vs.length, classify s.cfg (pushSlot s j) = .sram (pushSlot s j)) :
    Frame (.sp :: slots s vs.length) s u ∧ u.sp.toNat = pushSlot s vs.length ∧
      ∀ j (hj : j < vs.length), u.sram (pushSlot s j) = some vs[j] := by
  induction vs generalizing s with
  | nil =>
    obtain rfl : u = s := h
    exact ⟨.refl _ _, rfl, nofun⟩
  | cons v rest ih =>
    obtain ⟨t, hpush, hrest⟩ := h
    obtain ⟨hv, hframe, hspt⟩ := hpush.sram (hc 0 (by simp))
    have hcfg : t.cfg = s.cfg := hframe.cfg_eq (by simp)
    have hslot (j : Nat) : pushSlot t j = pushSlot s (j + 1) := pushSlot_pushed s t hcfg hspt j
    obtain ⟨hframe', hspu, hbytes⟩ := ih hrest (hcfg ▸ hspt ▸ pushSlot_lt hsp 1)
      (by simp only [List.length_cons] at hlen; omega)
      (fun j hj => by
        rw [hslot, hcfg]
        exact hc (j + 1) (by simpa using hj))
    have hslots : slots t rest.length = (List.range rest.length).map fun j => .sram (pushSlot s (j + 1)) :=
      List.map_congr_left fun j _ => by rw [hslot]
    refine ⟨(hframe.trans hframe').mono fun p hp => ?_, hspu.trans (hslot _), fun j hj => ?_⟩
    · simp only [hslots, List.mem_append, List.mem_cons, List.not_mem_nil, or_false, List.mem_map, List.mem_range,
        mem_slots, List.length_cons] at hp ⊢
      rcases hp with (hp | rfl) | hp | ⟨j, hj, rfl⟩
      · exact .inl hp
      · exact .inr ⟨0, by omega, rfl⟩
      · exact .inl hp
      · exact .inr ⟨j + 1, by omega, rfl⟩
    · cases j with
      | zero =>
        refine (hframe'.sram_eq _ ?_).trans hv
        simp only [List.mem_cons, reduceCtorEq, mem_slots, Part.sram.injEq, false_or, not_exists, not_and]
        intro j hj
        rw [hslot]
        simp only [List.length_cons] at hlen
        exact (pushSlot_ne hsp (by omega) (by omega)).symm
      | succ j => exact hslot j ▸ hbytes j (by simpa using hj)

/-! ### Popping -/

theorem Popped.sram {v : Byte} {s t : State} (h : Popped v s t)
    (hc : classify s.cfg (popSlot s 0) = .sram (popSlot s 0)) :
    v = (s.sram (popSlot s 0)).getD 0 ∧ Frame [.sp] s t ∧ t.sp.toNat = popSlot s 0 := by
  obtain ⟨u, hsp, hframe, hv, hread, -⟩ := h
  have hcfg : u.cfg = s.cfg := hframe.cfg_eq (by simp)
  have hcu : classify u.cfg u.sp.toNat = .sram (popSlot s 0) := by rw [hcfg, hsp, hc]
  have hparts : readParts u.cfg u.sp.toNat = [] := by simp [readParts, deviceAt, hcu]
  rw [hparts] at hread
  refine ⟨?_, (hframe.trans hread).mono (by simp), ?_⟩
  · rw [hv, dataByte, hcu]
    exact congrArg (Option.getD · 0) (hframe.sram_eq _ (by simp))
  · rw [hread.sp_eq (by simp), hsp]

/-- Popped bytes are those of their slots, the first one above SP; nothing but SP has changed. -/
theorem PoppedAll.sram {vs : List Byte} {s t : State} (h : PoppedAll vs s t)
    (hsp : s.sp.toNat < 2 ^ s.cfg.spBits.width)
    (hc : ∀ j < vs.length, classify s.cfg (popSlot s j) = .sram (popSlot s j)) :
    Frame [.sp] s t ∧ t.sp.toNat = (s.sp.toNat + vs.length) % 2 ^ s.cfg.spBits.width ∧
      ∀ j (hj : j < vs.length), vs[j] = (s.sram (popSlot s j)).getD 0 := by
  induction vs generalizing s with
  | nil =>
    obtain rfl : t = s := h
    exact ⟨.refl _ _, (Nat.mod_eq_of_lt hsp).symm, nofun⟩
  | cons v rest ih =>
    obtain ⟨u, hpop, hrest⟩ := h
    obtain ⟨hv, hframe, hspu⟩ := hpop.sram (hc 0 (by simp))
    have hcfg : u.cfg = s.cfg := hframe.cfg_eq (by simp)
    have hslot (j : Nat) : popSlot u j = popSlot s (j + 1) := popSlot_popped s u j hcfg hspu
    obtain ⟨hframe', hspt, hbytes⟩ := ih hrest (by rw [hspu, hcfg]; exact Nat.mod_lt _ (Nat.two_pow_pos _))
      (fun j hj => by
        rw [hslot, hcfg]
        exact hc (j + 1) (by simpa using hj))
    refine ⟨hframe.trans_same hframe', ?_, fun j hj => ?_⟩
    · rw [hspt, hspu, hcfg, popSlot, Nat.mod_add_mod, List.length_cons]
      congr 1
      omega
    · cases j with
      | zero => exact hv
      | succ j =>
        rw [List.getElem_cons_succ, hbytes j (by simpa using hj), hslot]
        exact congrArg (Option.getD · 0) (hframe.sram_eq _ (by simp))

/-! ### A call and its return -/

theorem retBytes_lt (c : Config) : retBytes c < 256 := by
  unfold retBytes
  cases c.pcBits <;> decide

theorem returnBytes_length (c : Config) (v : PcWord) : (returnBytes c v).length = retBytes c := by
  unfold returnBytes retBytes
  cases c.pcBits <;> rfl

theorem returnBytes_low (c : Config) (v : PcWord) :
    ∃ rest, returnBytes c v = BitVec.ofNat 8 v.toNat :: BitVec.ofNat 8 (v.toNat / 256) :: rest := by
  unfold returnBytes
  cases c.pcBits <;> exact ⟨_, rfl⟩

/-- The bytes of a return address, the highest first, are its number (R78, R79). -/
theorem bytesValue_reverse_returnBytes (c : Config) (v : PcWord) (hv : v.toNat < 2 ^ c.pcBits.width) :
    bytesValue (returnBytes c v).reverse = v.toNat := by
  unfold returnBytes
  cases hb : c.pcBits with
  | bits16 =>
    rw [hb] at hv
    simp only [PcBits.width, Nat.reducePow] at hv
    simp only [bytesValue, List.reverse_cons, List.reverse_nil, List.nil_append, List.cons_append, List.foldl_cons,
      List.foldl_nil, BitVec.toNat_ofNat, Nat.reducePow]
    omega
  | bits22 =>
    have := v.isLt
    simp only [bytesValue, List.reverse_cons, List.reverse_nil, List.nil_append, List.cons_append, List.foldl_cons,
      List.foldl_nil, BitVec.toNat_ofNat, Nat.reducePow]
    omega

theorem readable_of_sram {s : State} {a : Nat} (hc : classify s.cfg a = .sram a) (h : s.sram a ≠ none) :
    Readable s a := by
  rw [Readable, hc]
  exact h

theorem writable_of_sram {c : Config} {a : Nat} (hc : classify c a = .sram a) : Writable c a := by
  rw [Writable, hc]
  trivial

/-- The byte popped `j`th is the one pushed `j`th from the end. -/
theorem popSlot_of_pushed {s u : State} {n j : Nat} (hsp : s.sp.toNat < 2 ^ s.cfg.spBits.width)
    (hcfg : u.cfg = s.cfg) (hu : u.sp.toNat = pushSlot s n) (hj : j < n) : popSlot u j = pushSlot s (n - 1 - j) := by
  have hup := pushSlot_add_up hsp (n - 1 - j) (j + 1)
  rw [popSlot, hcfg]
  rwa [show n - 1 - j + (j + 1) = n by omega, ← hu, ← Nat.add_assoc] at hup

/-- A return address pushed on SRAM is what a return finds there, and SP is back. -/
theorem return_of_pushedAll {s w u : State} {v : PcWord} (hsp : s.sp.toNat < 2 ^ s.cfg.spBits.width)
    (hv : v.toNat < 2 ^ s.cfg.pcBits.width) (hpush : PushedAll (returnBytes s.cfg v) s w) (hwu : Frame [] w u)
    (hsram : ∀ j < retBytes s.cfg, classify s.cfg (pushSlot s j) = .sram (pushSlot s j)) :
    ∃ x, return_ u = .ok (x.setPc v) ∧ x.sp = s.sp ∧ Frame [.sp] u x := by
  have hlen := returnBytes_length s.cfg v
  obtain ⟨hframe, hspw, hbytes⟩ := hpush.sram hsp (hlen ▸ retBytes_lt s.cfg) (hlen ▸ hsram)
  rw [hlen] at hspw
  have hcfg : u.cfg = s.cfg := (hwu.cfg_eq List.not_mem_nil).trans (hframe.cfg_eq (by simp [slots]))
  have hspu : u.sp.toNat = pushSlot s (retBytes s.cfg) := by rw [hwu.sp_eq List.not_mem_nil, hspw]
  have hspu' : u.sp.toNat < 2 ^ u.cfg.spBits.width := by
    rw [hcfg, hspu]
    exact pushSlot_lt hsp _
  have hslot {j : Nat} (hj : j < retBytes s.cfg) := popSlot_of_pushed hsp hcfg hspu hj
  have hclass (j : Nat) (hj : j < retBytes s.cfg) : classify u.cfg (popSlot u j) = .sram (popSlot u j) := by
    rw [hslot hj, hcfg]
    exact hsram _ (by omega)
  have hbyte (j : Nat) (hj : j < retBytes s.cfg) :
      u.sram (popSlot u j) = some ((returnBytes s.cfg v)[retBytes s.cfg - 1 - j]'(by omega)) := by
    rw [hslot hj, hwu.sram_eq _ List.not_mem_nil]
    exact hbytes _ (by omega)
  obtain ⟨bytes, v', x, hx, hxlen, hpop, hv'⟩ := return_effect u fun j hj =>
    readable_of_sram (hclass j (hcfg ▸ hj)) (by
      rw [hbyte j (hcfg ▸ hj)]
      exact Option.some_ne_none _)
  replace hxlen : bytes.length = retBytes s.cfg := hxlen.trans (congrArg retBytes hcfg)
  obtain ⟨hframe', hspx, hbytes'⟩ := hpop.sram hspu' fun j hj => hclass j (hxlen ▸ hj)
  have hrev : bytes = (returnBytes s.cfg v).reverse := by
    refine List.ext_getElem (by rw [hxlen, List.length_reverse, hlen]) fun j hj _ => ?_
    rw [hbytes' j hj, hbyte j (hxlen ▸ hj), Option.getD_some, List.getElem_reverse]
    simp only [hlen]
  have hpc : v' = v := by
    apply BitVec.eq_of_toNat_eq
    rw [hv', hrev, bytesValue_reverse_returnBytes _ _ hv, hcfg]
    exact Nat.mod_eq_of_lt hv
  refine ⟨x, hpc ▸ hx, ?_, hframe'⟩
  apply BitVec.eq_of_toNat_eq
  have hup := pushSlot_add_up hsp 0 (retBytes s.cfg)
  rw [Nat.zero_add, ← hspu, ← hcfg] at hup
  rw [hspx, hxlen, ← hcfg]
  exact hup

/-- Settles O33: the bytes the call pushes stand in SRAM, and the return pops them in the opposite order. -/
theorem callThenReturn : Obligations.CallThenReturn := by
  intro s k hsp hsram
  obtain ⟨w, hw, hpush⟩ := call_effect (pcAdd s.cfg s.pc 2) (pcTrunc s.cfg k) s fun j hj => writable_of_sram (hsram j hj)
  obtain ⟨x, hx, hspx, hframe'⟩ := return_of_pushedAll hsp (pcAdd_lt _ _ _) hpush (.setPc w (pcTrunc s.cfg k)) hsram
  have hlen := returnBytes_length s.cfg (pcAdd s.cfg s.pc 2)
  obtain ⟨hframe, -, hbytes⟩ := hpush.sram hsp (hlen ▸ retBytes_lt s.cfg) (hlen ▸ hsram)
  rw [hlen] at hframe
  obtain ⟨rest, hlow⟩ := returnBytes_low s.cfg (pcAdd s.cfg s.pc 2)
  have h0 := hbytes 0 (by simp [hlow])
  have h1 := hbytes 1 (by simp [hlow])
  simp only [hlow, List.getElem_cons_succ, List.getElem_cons_zero] at h0 h1
  refine ⟨_, x.setPc _, finish_eq_next.2 hw, finish_eq_next.2 hx, pcAdd_toNat s.cfg s.pc 2, hspx, h0, h1, fun p hp => ?_⟩
  by_cases hpsp : p = .sp
  · subst hpsp
    exact hspx
  · have hcall : p.same s w := hframe p (by
      simp only [List.mem_cons, hpsp, false_or]
      exact hp)
    have hreturn : p.same w (x.setPc _) :=
      ((Frame.setPc w _).trans hframe').trans (.setPc x (pcAdd s.cfg s.pc 2)) p (by simpa using hpsp)
    exact p.same_trans s w _ hcall hreturn

end Sys2Proof.Machine
end

section
/-! SUPPORT. The loads and stores (spec/43_data_transfer.md sections 3 to 9). -/

namespace Sys2Proof.Machine

/-! ### Transfers over an operation that answers -/

section
variable {i : Instr} {s u : State} {x : Except Fault State}

/-- The end of a transfer moves the pc from where the operation left it. -/
theorem transfer_pc (hp : u.pc = s.pc) (hc : u.cfg = s.cfg) (n : Nat) : PcAt s (u.advance n) n :=
  .of_eq hc hp (.advance u n)

/-- Either ending, by how far it moves the pc. -/
theorem transferBy_ok {n : Nat} (hi : exec i s = finish (x.map fun s => s.advance n)) (hx : x = .ok u) :
    exec i s = .next (u.advance n) := by
  rw [hi, hx]
  rfl

theorem transferBy_error {n : Nat} {e : Fault} (hi : exec i s = finish (x.map fun s => s.advance n))
    (hx : x = .error e) : exec i s = .fault e := by
  rw [hi, hx]
  rfl

end

/-! ### Plain loads and stores -/

section
variable {i : Instr} {s : State} {r : Reg} {a : Addr24} {n : Nat}

/-- A load at an address, whatever names it. -/
theorem load_effect (hi : exec i s = finish ((loadAt r a s).map fun s => s.advance n)) (h : Readable s a.toNat) :
    ∃ u t, exec i s = .next t ∧ ReadEffect a.toNat s u ∧ t.reg r = dataByte s a.toNat ∧ Frame [.reg r] u t ∧
      PcAt s t n := by
  obtain ⟨u, t, ht, hread, hreg, hframe, hp, hc⟩ := loadAt_effect r a s h
  exact ⟨u, _, transferBy_ok hi ht, hread, hreg, hframe.trans (.advance t n), transfer_pc hp hc n⟩

/-- A store at an address, whatever names it. -/
theorem store_effect (hi : exec i s = finish ((memWrite a.toNat (s.reg r) s).map fun s => s.advance n))
    (h : Writable s.cfg a.toNat) : ∃ t, exec i s = .next t ∧ Stored a.toNat (s.reg r) s t ∧ PcAt s t n := by
  obtain ⟨t, ht, hstored, hp⟩ := memWrite_effect a.toNat (s.reg r) s h
  exact ⟨_, transferBy_ok hi ht, hstored.extend (.advance t n), transfer_pc hp hstored.cfg_eq n⟩

end

/-- Settles O35: each loads at the address its operands name. -/
theorem plainLoadResult : Obligations.PlainLoadResult := by
  intro s d k k7 q
  simp only [List.forall_mem_cons]
  exact ⟨load_effect rfl, load_effect rfl, load_effect rfl, load_effect rfl, load_effect rfl, load_effect rfl,
    load_effect rfl, List.forall_mem_nil _⟩

/-- Settles O37: each stores at the address its operands name. -/
theorem plainStoreResult : Obligations.PlainStoreResult := by
  intro s r k k7 q
  simp only [List.forall_mem_cons]
  exact ⟨store_effect rfl, store_effect rfl, store_effect rfl, store_effect rfl, store_effect rfl, store_effect rfl,
    store_effect rfl, List.forall_mem_nil _⟩

/-! ### Moving pointers -/

/-- A move of the pc leaves a moved pointer. -/
theorem PtrMoved.advance {p : Ptr} {a : Addr24} {s t : State} (h : PtrMoved p a s t) (n : Nat) :
    PtrMoved p a s (t.advance n) :=
  ⟨h.1, (h.2.trans (.advance t n)).mono (by simp)⟩

/-- Settles O36: by the two loads with a moving pointer. -/
theorem movingLoadResult : Obligations.MovingLoadResult := by
  intro s d p h1 h2 inc dec
  have hinc : exec inc s = transfer (loadPostInc p d s) := by cases p <;> rfl
  have hdec : exec dec s = transfer (loadPreDec p d s) := by cases p <;> rfl
  refine ⟨fun h => ?_, fun h => ?_⟩
  · obtain ⟨u, v, t, ht, hread, hreg, hframe, hmoved, hp, hc⟩ := loadPostInc_effect p d s h1 h2 h
    exact ⟨u, v, _, hinc.trans (transfer_ok ht), hread, hreg, hframe, hmoved.advance 1, transfer_pc hp hc 1⟩
  · obtain ⟨u, v, t, ht, hmoved, hread, hreg, hframe, hp, hc⟩ := loadPreDec_effect p d s h1 h2 h
    exact ⟨u, v, _, hdec.trans (transfer_ok ht), hmoved, hread, hreg, hframe.trans (.advance t 1), transfer_pc hp hc 1⟩

/-- Settles O38: by the two stores with a moving pointer. -/
theorem movingStoreResult : Obligations.MovingStoreResult := by
  intro s r p h1 h2 inc dec
  have hinc : exec inc s = transfer (storePostInc p r s) := by cases p <;> rfl
  have hdec : exec dec s = transfer (storePreDec p r s) := by cases p <;> rfl
  refine ⟨fun h => ?_, fun h => ?_⟩
  · obtain ⟨u, t, ht, hstored, hmoved, hp, hc⟩ := storePostInc_effect p r s h1 h2 h
    exact ⟨u, _, hinc.trans (transfer_ok ht), hstored, hmoved.advance 1, transfer_pc hp hc 1⟩
  · obtain ⟨u, t, ht, hmoved, hstored, hp, hc⟩ := storePreDec_effect p r s h1 h2 h
    exact ⟨u, _, hdec.trans (transfer_ok ht), hmoved, hstored.extend (.advance t 1), transfer_pc hp hc 1⟩

/-- Settles O39: a half of the pointer stops every form with a moving pointer. -/
theorem undefinedCombinationsFault : Obligations.UndefinedCombinationsFault := by
  intro s
  have halves {p : Ptr} {d : Reg} (hd : d ∈ [ptrLow p, ptrHigh p]) : d = ptrLow p ∨ d = ptrHigh p := by simpa using hd
  refine ⟨fun d hd => ?_, fun d hd => ?_, fun d hd => ?_⟩
  · obtain ⟨h1, h2, h3, h4⟩ := autoModify_fault .X d s (halves hd)
    simp only [List.forall_mem_cons]
    exact ⟨transfer_error h1, transfer_error h2, transfer_error h3, transfer_error h4, List.forall_mem_nil _⟩
  · obtain ⟨h1, h2, h3, h4⟩ := autoModify_fault .Y d s (halves hd)
    simp only [List.forall_mem_cons]
    exact ⟨transfer_error h1, transfer_error h2, transfer_error h3, transfer_error h4, List.forall_mem_nil _⟩
  · obtain ⟨h1, h2, h3, h4⟩ := autoModify_fault .Z d s (halves hd)
    have hhalf : isPtrHalf .Z d = true := by
      rw [isPtrHalf, Bool.or_eq_true, beq_iff_eq, beq_iff_eq]
      exact halves hd
    simp only [List.forall_mem_cons]
    exact ⟨transfer_error h1, transfer_error h2, transfer_error h3, transfer_error h4, if_pos hhalf, if_pos hhalf,
      List.forall_mem_nil _⟩

/-! ### Addresses as numbers -/

theorem ptrGet_toNat (p : Ptr) (s : State) : (ptrGet p s).toNat =
    match ptrMode s.cfg p with
    | .small => (s.reg (ptrLow p)).toNat
    | .normal => (s.reg (ptrHigh p)).toNat * 256 + (s.reg (ptrLow p)).toNat
    | .wide => (s.ramp p).toNat * 65536 + (s.reg (ptrHigh p)).toNat * 256 + (s.reg (ptrLow p)).toNat := by
  have hlo := (s.reg (ptrLow p)).isLt
  have hhi := (s.reg (ptrHigh p)).isLt
  unfold ptrGet
  cases ptrMode s.cfg p with
  | small =>
    rw [BitVec.toNat_setWidth]
    exact Nat.mod_eq_of_lt (by omega)
  | normal =>
    rw [BitVec.toNat_setWidth, word_toNat]
    exact Nat.mod_eq_of_lt (by omega)
  | wide => exact addr3_toNat _ _ _

theorem ptrAdd_toNat (p : Ptr) (n : Addr24) (s : State) :
    (ptrAdd p n s).toNat = ((ptrGet p s).toNat + n.toNat) % 2 ^ ptrWidth s.cfg p := by
  have hsum : (ptrGet p s + n).toNat = ((ptrGet p s).toNat + n.toNat) % 2 ^ 24 := BitVec.toNat_add _ _
  unfold ptrAdd ptrOffset ptrClip ptrWidth
  cases ptrMode s.cfg p with
  | wide => exact hsum
  | _ =>
    simp only [BitVec.toNat_setWidth, BitVec.extractLsb'_toNat, Nat.shiftRight_zero, hsum, Nat.reducePow]
    omega

/-- Settles O40: the mode of a pointer decides its width and its value. -/
theorem pointerModes : Obligations.PointerModes := by
  intro s p n k
  have hget := ptrGet_toNat p s
  refine ⟨fun hc => ?_, fun hc hn => ?_, fun hc hr ho => ?_, ptrAdd_toNat p n s, directAddr_toNat k s⟩
  · have hm : ptrMode s.cfg p = .small := if_pos hc
    rw [hm] at hget
    exact ⟨by rw [ptrWidth, hm], hget⟩
  · have hm : ptrMode s.cfg p = .normal := by
      rw [ptrMode, if_neg hc, if_neg]
      rcases hn with hn | ⟨rfl, hn⟩ <;> simp [hn]
    rw [hm] at hget
    exact ⟨by rw [ptrWidth, hm], hget⟩
  · have hm : ptrMode s.cfg p = .wide := by
      rw [ptrMode, if_neg hc, if_pos]
      rw [hr, Bool.true_and, Bool.not_eq_true', ← Bool.not_eq_true, Bool.and_eq_true, beq_iff_eq]
      exact ho
    rw [hm] at hget
    exact ⟨by rw [ptrWidth, hm], hget⟩

/-- `Addr16(k)` as a number: the bit that `LDS16_ALT` puts on top is k(4), else its complement (R112, D15). -/
theorem addr16_toNat (c : Config) (k : BitVec 7) : (addr16 c k).toNat =
    (if (k.toNat / 16 % 2 = 1 ↔ c.lds16Alt = true) then 128 else 64) + k.toNat / 64 * 32 + k.toNat / 32 % 2 * 16 +
      k.toNat % 16 := by
  have hk := k.isLt
  have htop (alt : Bool) (b : BitVec 1) : (if alt then b ++ ~~~b else ~~~b ++ b : BitVec 2).toNat =
      if (b.toNat = 1 ↔ alt = true) then 2 else 1 := by
    revert alt b
    decide
  unfold addr16
  refine (append4_toNat _ _ _ _).trans ?_
  simp only [htop, BitVec.extractLsb'_toNat, Nat.shiftRight_eq_div_pow, Nat.reducePow]
  split_ifs <;> omega

/-- Settles O41: both top bits together are 01 or 10, and the four low bits and bits 5 and 6 of k are free. -/
theorem shortDirectAddressRange : Obligations.ShortDirectAddressRange := by
  refine ⟨fun c k => ?_, fun c a h1 h2 => ?_, fun c k halt => ?_⟩
  · have hk := k.isLt
    rw [addr16_toNat]
    split_ifs <;> omega
  · obtain ⟨b, hb, htop⟩ : ∃ b < 2, (b = 1 ↔ c.lds16Alt = true) ↔ 128 ≤ a := by
      by_cases h : c.lds16Alt = true ↔ 128 ≤ a
      · exact ⟨1, by decide, by simpa using h⟩
      · exact ⟨0, by decide, by cases h' : c.lds16Alt <;> simp [h'] at h ⊢ <;> omega⟩
    refine ⟨BitVec.ofNat 7 (a / 32 % 2 * 64 + a / 16 % 2 * 32 + b * 16 + a % 16), ?_⟩
    have hk : (BitVec.ofNat 7 (a / 32 % 2 * 64 + a / 16 % 2 * 32 + b * 16 + a % 16)).toNat =
        a / 32 % 2 * 64 + a / 16 % 2 * 32 + b * 16 + a % 16 := by
      rw [BitVec.toNat_ofNat]
      exact Nat.mod_eq_of_lt (by omega)
    have hbit : (a / 32 % 2 * 64 + a / 16 % 2 * 32 + b * 16 + a % 16) / 16 % 2 = b := by omega
    rw [addr16_toNat, hk, hbit]
    simp only [htop]
    split_ifs <;> omega
  · have hk := k.isLt
    have hrow (n : Nat) (hn : n < 8) : [0x80, 0x40, 0x90, 0x50, 0xA0, 0x60, 0xB0, 0x70].getD n 0 =
        (if n % 2 = 1 then 64 else 128) + n / 4 * 32 + n / 2 % 2 * 16 := by
      interval_cases n <;> rfl
    rw [addr16_toNat, hrow _ (by omega), halt]
    simp only [Bool.false_eq_true, iff_false, ite_not]
    split_ifs <;> omega

/-! ### Program memory -/

section
variable {i : Instr} {s : State} {d : Reg} {a b : Nat}

/-- LPM and ELPM without Z+. -/
theorem loadProg_plain (hi : exec i s = transfer (loadProg d a s)) (hab : a = b) :
    (b / 2 ≤ s.cfg.flashEnd → ∃ t, exec i s = .next t ∧ t.reg d = s.progCell b ∧ Frame [.reg d] s t ∧ PcAt s t 1) ∧
      (s.cfg.flashEnd < b / 2 → exec i s = .fault (.unmappedAddress b)) := by
  subst hab
  exact ⟨fun h => ⟨_, hi.trans (transfer_ok (loadProg_effect d a s h)), setReg_advance d (s.progCell a) s⟩,
    fun h => hi.trans (transfer_error (loadProg_fault d a s h))⟩

/-- LPM and ELPM with Z+, for a destination that is no half of Z. -/
theorem loadProg_moving {f : State → State}
    (hi : exec i s = transfer ((loadProg d a s).map f)) (hab : a = b) :
    (b / 2 ≤ s.cfg.flashEnd → exec i s = .next ((f (s.setReg d (s.progCell b))).advance 1)) ∧
      (s.cfg.flashEnd < b / 2 → exec i s = .fault (.unmappedAddress b)) := by
  subst hab
  refine ⟨fun h => hi.trans (transfer_ok ?_), fun h => hi.trans (transfer_error ?_)⟩
  · rw [loadProg_effect d a s h]
    rfl
  · rw [loadProg_fault d a s h]
    rfl

end

/-- Settles O42: the program byte is at Z, or at RAMPZ:Z; what moves is the one or the other. -/
theorem programByteLoadResult : Obligations.ProgramByteLoadResult := by
  intro s d z zz
  have hz : (s.pair 30).toNat = z := State.pair_z_toNat s
  have hzz : s.rampZZ.toNat = zz := State.rampZZ_toNat s
  refine ⟨?_, fun h30 h31 => ?_⟩
  · simp only [List.forall_mem_cons]
    exact ⟨loadProg_plain rfl hz, loadProg_plain rfl hz, loadProg_plain rfl hzz, loadProg_plain rfl hzz,
      List.forall_mem_nil _⟩
  · have hhalf : isPtrHalf .Z d = false := by
      rw [isPtrHalf, Bool.or_eq_false_iff, beq_eq_false_iff_ne, beq_eq_false_iff_ne]
      exact ⟨h30, h31⟩
    obtain ⟨hlpm, hlpm'⟩ := loadProg_moving (i := .lpmInc d) (if_neg (by simp [hhalf])) hz
    obtain ⟨helpm, helpm'⟩ := loadProg_moving (i := .elpmInc d) (if_neg (by simp [hhalf])) hzz
    have hsum : (s.rampZZ + 1).toNat = (zz + 1) % 16777216 := by
      rw [BitVec.toNat_add, hzz]
      rfl
    have hbyte (u : State) (v : Byte) (hf : Frame [.reg 30, .reg 31, .ramp .Z] (s.setReg d v) u) : u.reg d = v :=
      (hf.reg_eq d (by simp [h30, h31])).trans (State.reg_setReg_self s d v)
    refine ⟨fun h => ⟨_, hlpm h, ?_, ?_, ?_, ?_⟩, hlpm', fun h => ⟨_, helpm h, ?_, ?_, ?_, ?_, ?_⟩, helpm'⟩
    · exact hbyte _ _ ((Frame.setPair _ 30 (s.pair 30 + 1)).mono (by simp))
    · have hnew := State.pair_z_toNat ((s.setReg d (s.progCell z)).setPair 30 (s.pair 30 + 1))
      rw [State.pair_setPair_self, BitVec.toNat_add, hz] at hnew
      exact hnew.symm
    · exact ((Frame.setReg s d _).trans (Frame.setPair _ 30 _)).trans (.advance _ 1)
    · exact .advance ((s.setReg d (s.progCell z)).setPair 30 (s.pair 30 + 1)) 1
    all_goals obtain ⟨hpair, hramp, hframe, hp⟩ := setRampZZ_effect (s.rampZZ + 1) (s.setReg d (s.progCell zz))
    · exact hbyte _ _ hframe
    · have hnew := State.pair_z_toNat (setRampZZ (s.rampZZ + 1) (s.setReg d (s.progCell zz)))
      rw [hpair, BitVec.extractLsb'_toNat, hsum, Nat.shiftRight_zero] at hnew
      exact hnew.symm.trans (by omega)
    · change if s.cfg.hasRampZ = true then (setRampZZ _ _).rampZ.toNat = _ else (setRampZZ _ _).rampZ = _
      rw [hramp, State.setReg_cfg]
      split_ifs
      · rw [BitVec.extractLsb'_toNat, hsum, Nat.shiftRight_eq_div_pow]
        omega
      · rfl
    · exact ((Frame.setReg s d _).trans hframe).trans (.advance _ 1)
    · exact transfer_pc hp (hframe.cfg_eq (by simp)) 1

/-! ### SPM -/

/-- RAMPZ:Z and R1:R0, as the obligation writes them. -/
theorem rampZZ_eq_ofNat (s : State) : BitVec.ofNat 24
    ((if s.cfg.hasRampZ then s.rampZ.toNat * 65536 else 0) + (s.reg 31).toNat * 256 + (s.reg 30).toNat) =
      s.rampZZ := by
  rw [Nat.add_assoc, ← State.rampZZ_toNat, BitVec.ofNat_toNat, BitVec.setWidth_eq]

theorem pairZero_eq_ofNat (s : State) : BitVec.ofNat 16 ((s.reg 1).toNat * 256 + (s.reg 0).toNat) = s.pair 0 := by
  rw [← State.pair_zero_toNat, BitVec.ofNat_toNat, BitVec.setWidth_eq]

/-- Settles O43: `SpmEffect` is applied to RAMPZ:Z, R1:R0 and the platform's state, and Z+ writes Z besides. -/
theorem programStoreEffect : Obligations.ProgramStoreEffect := by
  intro s
  rw [rampZZ_eq_ofNat, pairZero_eq_ofNat]
  intro zz data outcome kept handed
  have hkept : kept (spmEffect s) [] := fun p hp hq _ => spmEffect_same s p hp hq
  refine ⟨fun h => ⟨⟨_, if_pos h, ⟨rfl, rfl, rfl, rfl, rfl⟩, fun p hp hq hr => ?_, .advance (spmEffect s) 1⟩,
    ⟨_, if_pos h, ⟨rfl, rfl, rfl, rfl, rfl⟩, fun p hp hq hr => ?_, .advance ((spmEffect s).setPair 30 _) 1, ?_⟩⟩,
    fun h => ⟨if_neg (by simp [h]), if_neg (by simp [h])⟩⟩
  · exact p.same_trans _ _ _ (hkept p hp hq hr) (Frame.advance _ 1 p List.not_mem_nil)
  · exact p.same_trans _ _ _ (hkept p hp hq List.not_mem_nil)
      (((Frame.setPair (spmEffect s) 30 (s.pair 30 + 2)).trans (.advance _ 1)) p hr)
  · have hnew := State.pair_z_toNat ((spmEffect s).setPair 30 (s.pair 30 + 2))
    rw [State.pair_setPair_self, BitVec.toNat_add, State.pair_z_toNat] at hnew
    exact hnew.symm

end Sys2Proof.Machine
end

section
/-! SUPPORT. IN, OUT, the stack, the read-modify-write instructions, the bits of I/O locations and the control instructions,
and the faults of all accesses (spec/43_data_transfer.md sections 10 and 11, spec/44_bit_and_bittest.md section 3,
spec/45_mcu_control.md, spec/60_exceptions.md section 1). -/

namespace Sys2Proof.Machine

/-! ### The I/O space -/

/-- Settles O44: by `ioRead_effect` and `ioWrite_effect`. -/
theorem inOutResult : Obligations.InOutResult := by
  intro s d A
  obtain ⟨hbyte, hread, hp⟩ := ioRead_effect A s
  obtain ⟨hstored, hp'⟩ := ioWrite_effect A (s.reg d) s
  obtain ⟨hreg, hframe, -⟩ := setReg_advance d (ioRead A s).1 (ioRead A s).2
  exact ⟨⟨_, _, rfl, hread, hreg.trans hbyte, hframe, transfer_pc hp (ioRead_keeps A s).1 1⟩,
    ⟨_, rfl, hstored.extend (.advance _ 1), transfer_pc hp' hstored.cfg_eq 1⟩⟩

theorem memRead_io {a : Nat} {s : State} {A : BitVec 6} (h : classify s.cfg a = .io A) :
    memRead a s = .ok (ioRead A s) := by
  rw [memRead, h]

theorem memWrite_io {a : Nat} {v : Byte} {s : State} {A : BitVec 6} (h : classify s.cfg a = .io A) :
    memWrite a v s = .ok (ioWrite A v s) := by
  rw [memWrite, h]

/-- Settles O45: the data space hands an I/O address to the I/O space. -/
theorem dataSpaceReachesIo : Obligations.DataSpaceReachesIo := by
  intro s d A h
  refine ⟨transfer_ok ?_, transfer_ok (memWrite_io h)⟩
  rw [loadPtr, loadAt, memRead_io h]

/-- Settles O48: by `ioPutBit_effect`, or `ioPutBit_device` where the platform has bit operations. -/
theorem ioBitWriteResult : Obligations.IoBitWriteResult := by
  intro s A5 b A old
  have put {i : Instr} {set : Bool} (hi : exec i s = .next ((ioPutBit A b set s).advance 1)) {v : Byte}
      (hv : putBit old b.val set = v) {e : PlatformEvent}
      (he : (if set then PlatformEvent.devSetBit (.io A) b else .devClearBit (.io A) b) = e) :
      if s.cfg.devBitOps = true ∧ ioTarget s.cfg A = .device then
        ∃ t, exec i s = .next t ∧ t.events = e :: s.events ∧ Frame [.events] s t ∧ PcAt s t 1
      else ∃ u t, exec i s = .next t ∧ IoReadEffect A s u ∧ IoStored A v u t ∧ PcAt s t 1 := by
    subst hv
    by_cases hdev : s.cfg.devBitOps = true ∧ ioTarget s.cfg A = .device
    · rw [ioPutBit_device A b set s hdev, he] at hi
      rw [if_pos hdev]
      exact ⟨_, hi, rfl, (Frame.record s _).trans (.advance _ 1), .advance (s.record _) 1⟩
    · rw [if_neg hdev]
      obtain ⟨u, -, hread, hstored, hp⟩ := ioPutBit_effect A b set s hdev
      have hcfg : (ioPutBit A b set s).cfg = s.cfg := (Tame.ioPutBit (l := anyParts) b set (allows_anyParts _)).cfg_eq
      exact ⟨u, _, hi, hread, hstored.extend (.advance _ 1), transfer_pc hp hcfg 1⟩
  simp only [List.forall_mem_cons]
  exact ⟨put (set := true) rfl rfl rfl, put (set := false) rfl rfl rfl, List.forall_mem_nil _⟩

/-! ### PUSH and POP -/

/-- A push, and then no change but of the pc. -/
theorem Pushed.extend {v : Byte} {s t u : State} (h : Pushed v s t) (f : Frame [] t u) : Pushed v s u := by
  obtain ⟨w, hstored, hsp, hframe⟩ := h
  exact ⟨w, hstored, by rw [f.sp_eq List.not_mem_nil, hsp], (hframe.trans f).mono (by simp)⟩

/-- Settles O46: by `push8_effect` and `pop8_effect`. -/
theorem pushPopEffect : Obligations.PushPopEffect := by
  intro s r
  refine ⟨fun h => ?_, fun h => ?_⟩
  · obtain ⟨t, ht, hpush, hp, hc, -⟩ := push8_effect (s.reg r) s h
    exact ⟨_, transfer_ok ht, hpush.extend (.advance t 1), transfer_pc hp hc 1⟩
  · obtain ⟨v, u, hu, hpop, hp, hc, -, -⟩ := pop8_effect s h
    obtain ⟨hreg, hframe, hpc⟩ := setReg_advance r v u
    refine ⟨v, u, _, transfer_ok ?_, hpop, hreg, hframe, .of_eq hc hp hpc⟩
    rw [hu]
    rfl

/-! ### XCH, LAS, LAC, LAT -/

/-- XCH at any address that can be read and stored to. -/
theorem xch_effect (d : Reg) (s : State) (hr : Readable s (ptrGet .Z s).toNat)
    (hw : Writable s.cfg (ptrGet .Z s).toNat) :
    ∃ u v t, exec (.xch d) s = .next t ∧ ReadEffect (ptrGet .Z s).toNat s u ∧
      Stored (ptrGet .Z s).toNat (s.reg d) u v ∧ t.reg d = dataByte s (ptrGet .Z s).toNat ∧ Frame [.reg d] v t ∧
      PcAt s t 1 := by
  obtain ⟨u, v, t, ht, hread, hstored, hreg, hframe, hp, hc⟩ := rmw_effect false (fun v _ => v) d s nofun hr hw
  exact ⟨u, v, _, transfer_ok ht, hread, hstored, hreg, hframe.trans (.advance t 1), transfer_pc hp hc 1⟩

/-- LAS, LAC and LAT in internal SRAM, by what they store. -/
theorem rmw_sram {i : Instr} {f : Byte → Byte → Byte} {d : Reg} {s : State} {m : Byte} {g : Bool → Bool → Bool}
    (hi : exec i s = transfer (rmw true f d s))
    (hc : classify s.cfg (ptrGet .Z s).toNat = .sram (ptrGet .Z s).toNat)
    (hm : s.sram (ptrGet .Z s).toNat = some m)
    (hg : ∀ n < 8, (f (s.reg d) m).getLsbD n = g ((s.reg d).getLsbD n) (m.getLsbD n)) :
    ∃ (t : State) (w : Byte), exec i s = .next t ∧ t.reg d = m ∧ t.sram (ptrGet .Z s).toNat = some w ∧
      (∀ n < 8, w.getLsbD n = g ((s.reg d).getLsbD n) (m.getLsbD n)) ∧
      Frame [.reg d, .sram (ptrGet .Z s).toNat] s t ∧ PcAt s t 1 := by
  generalize ha : (ptrGet .Z s).toNat = a at hc hm ⊢
  have hbyte : dataByte s a = m := by
    rw [dataByte, hc]
    simp only [hm, Option.getD_some]
  obtain ⟨u, v, t, ht, ⟨hread, -⟩, hstored, hreg, hframe, hp, hcfg⟩ := rmw_effect true f d s (ha ▸ fun _ => hc)
    (ha ▸ readable_of_sram hc (by simp [hm])) (ha ▸ writable_of_sram hc)
  rw [ha, hbyte] at hstored hreg
  have hparts : readParts s.cfg a = [] := by simp [readParts, deviceAt, hc]
  rw [ha, hparts] at hread
  rw [Stored, hread.cfg_eq List.not_mem_nil, hc] at hstored
  obtain ⟨hsram, hframe'⟩ := hstored
  refine ⟨_, _, hi.trans (transfer_ok ht), hreg, (hframe.sram_eq a (by simp)).trans hsram, hg, ?_,
    transfer_pc hp hcfg 1⟩
  exact (((hread.trans hframe').trans hframe).trans (.advance t 1)).mono (by simp)

/-- Settles O47: XCH by `xch_effect`, the other three by `rmw_sram` and `rmw_fault`. -/
theorem readModifyWriteResult : Obligations.ReadModifyWriteResult := by
  intro s d
  refine ⟨xch_effect d s, ?_⟩
  simp only [List.forall_mem_cons]
  refine ⟨⟨fun m hc hm => rmw_sram rfl hc hm fun n _ => BitVec.getLsbD_or, fun h => transfer_error (rmw_fault _ d s h)⟩,
    ⟨fun m hc hm => rmw_sram (g := fun x y => !x && y) rfl hc hm fun n hn => ?_, fun h => transfer_error (rmw_fault _ d s h)⟩,
    ⟨fun m hc hm => rmw_sram rfl hc hm fun n _ => BitVec.getLsbD_xor, fun h => transfer_error (rmw_fault _ d s h)⟩,
    List.forall_mem_nil _⟩
  rw [ff_sub_eq_not]
  simp [hn]

/-! ### Control -/

/-- SLEEP and BREAK: `run` where the condition holds, and the pc. -/
theorem control_effect {i : Instr} {s : State} {c : Prop} [Decidable c] {r : Run}
    (hi : exec i s = .next (if c then (s.advance 1).setRun r else s.advance 1)) :
    ∃ t, exec i s = .next t ∧ (c → t.run = r) ∧ (¬ c → t.run = s.run) ∧ Frame [.run] s t ∧ PcAt s t 1 := by
  refine ⟨_, hi, ?_⟩
  split_ifs with hc
  · exact ⟨fun _ => rfl, fun hn => absurd hc hn, (Frame.advance s 1).trans (.setRun _ r), .advance s 1⟩
  · exact ⟨fun h => absurd h hc, fun _ => rfl, (Frame.advance s 1).mono (by simp), .advance s 1⟩

/-- Settles O49: SLEEP and BREAK by `control_effect`, with their conditions as they read them. -/
theorem controlResult : Obligations.ControlResult := by
  intro s ocd
  have hocd : ocdEnabled s = true ↔ ocd := by
    simp only [ocd, ocdEnabled, Bool.and_eq_true, Bool.not_eq_true', and_assoc]
  refine ⟨⟨_, rfl, .advance s 1, .advance s 1⟩, ⟨_, rfl, rfl, (Frame.record s _).trans (.advance _ 1),
    .advance (s.record _) 1⟩, ?_, ?_⟩
  · obtain ⟨t, ht, hy, hn, hrest⟩ := control_effect (i := .sleep) (s := s) (c := s.sleepEnabled = true) rfl
    exact ⟨t, ht, hy, fun h => hn (by simp [h]), hrest⟩
  · obtain ⟨t, ht, hy, hn, hrest⟩ := control_effect (i := .brk) (s := s) (c := ocdEnabled s = true) rfl
    exact ⟨t, ht, fun h => hy (hocd.2 h), fun h => hn (mt hocd.1 h), hrest⟩

/-! ### Faults -/

/-- Settles O50: each form faults as the access it makes. -/
theorem dataFaults : Obligations.DataFaults := by
  intro s d k k7 q z
  have load {i : Instr} {a : Addr24} {n : Nat} (hi : exec i s = finish ((loadAt d a s).map fun s => s.advance n))
      (h : ¬ Readable s a.toNat) : exec i s = .fault (readFault s a.toNat) :=
    transferBy_error hi (loadAt_fault d a s h)
  have store {i : Instr} {a : Addr24} {n : Nat}
      (hi : exec i s = finish ((memWrite a.toNat (s.reg d) s).map fun s => s.advance n))
      (h : ¬ Writable s.cfg a.toNat) : exec i s = .fault (writeFault s.cfg a.toNat) :=
    transferBy_error hi (memWrite_fault _ _ s h)
  have xch := rmw_accessFault false (fun v _ => v) d s nofun
  refine ⟨?_, ?_, ?_, fun hr hw => transfer_error (xch.2 hr hw), fun hc hm => ?_, fun j hb h => ⟨?_, ?_⟩,
    fun j hb h => ⟨?_, ?_⟩⟩
  · simp only [List.forall_mem_cons]
    exact ⟨load rfl, load rfl, load rfl, load rfl, load rfl, load rfl, load rfl, fun h => transfer_error (xch.1 h),
      List.forall_mem_nil _⟩
  · simp only [List.forall_mem_cons]
    exact ⟨store rfl, store rfl, store rfl, store rfl, store rfl, store rfl, store rfl, List.forall_mem_nil _⟩
  · have moving {p : Ptr} (h1 : d ≠ ptrLow p) (h2 : d ≠ ptrHigh p) {i1 i2 i3 i4 : Instr}
        (e1 : exec i1 s = transfer (loadPostInc p d s)) (e2 : exec i2 s = transfer (loadPreDec p d s))
        (e3 : exec i3 s = transfer (storePostInc p d s)) (e4 : exec i4 s = transfer (storePreDec p d s)) :
        let old := (ptrGet p s).toNat
        let low := (ptrAdd p (-1) s).toNat
        (¬ Readable s old → exec i1 s = .fault (readFault s old)) ∧
        (¬ Readable s low → exec i2 s = .fault (readFault s low)) ∧
        (¬ Writable s.cfg old → exec i3 s = .fault (writeFault s.cfg old)) ∧
        (¬ Writable s.cfg low → exec i4 s = .fault (writeFault s.cfg low)) := by
      obtain ⟨l1, l2⟩ := loadMove_fault p d s h1 h2
      obtain ⟨s1, s2⟩ := storeMove_fault p d s h1 h2
      exact ⟨fun h => e1.trans (transfer_error (l1 h)), fun h => e2.trans (transfer_error (l2 h)),
        fun h => e3.trans (transfer_error (s1 h)), fun h => e4.trans (transfer_error (s2 h))⟩
    simp only [List.forall_mem_cons]
    exact ⟨fun h1 h2 => moving h1 h2 rfl rfl rfl rfl, fun h1 h2 => moving h1 h2 rfl rfl rfl rfl,
      fun h1 h2 => moving h1 h2 rfl rfl rfl rfl, List.forall_mem_nil _⟩
  · have hfault : readFault s z = .unwrittenMemory z := by rw [readFault, hc]
    have hr : ¬ Readable s z := by
      rw [Readable, hc]
      exact fun h => h hm
    have rmw_unwritten (f : Byte → Byte → Byte) : rmw true f d s = .error (.unwrittenMemory z) :=
      hfault ▸ (rmw_accessFault true f d s fun _ => hc).1 hr
    simp only [List.forall_mem_cons]
    exact ⟨transfer_error (rmw_unwritten _), transfer_error (rmw_unwritten _), transfer_error (rmw_unwritten _),
      List.forall_mem_nil _⟩
  · rintro rfl
    refine transfer_error ?_
    rw [pop8_fault s h]
    rfl
  · intro hj
    have hpop := popPc_fault s j hj hb h
    simp only [List.forall_mem_cons]
    refine ⟨?_, ?_, List.forall_mem_nil _⟩
    · change finish (return_ s) = _
      rw [return_, hpop, finish_error]
    · change finish (interruptReturn s) = _
      rw [interruptReturn, hpop, finish_error]
  · rintro rfl
    exact transfer_error (push8_fault _ s h)
  · intro hj k12 k22
    have calls {i : Instr} {ret target : PcWord} (hi : exec i s = finish (call ret target s)) :
        exec i s = .fault (writeFault s.cfg (pushSlot s j)) := by
      rw [hi, call, pushPc_fault ret s j hj hb h, finish_error]
    simp only [List.forall_mem_cons]
    exact ⟨calls rfl, calls rfl, calls rfl, calls rfl, List.forall_mem_nil _⟩

end Sys2Proof.Machine
end

section
/-! SUPPORT. The interrupt check and the entry of an interrupt, sleep, and reset (spec/60_exceptions.md section 2,
spec/70_reset_and_hazards.md section 1). -/

namespace Sys2Proof.Machine

/-! ### The check -/

theorem mem_pendingSources {s : State} {n : Nat} :
    n ∈ pendingSources s ↔ n ∈ s.irqPending ∧ 1 ≤ n ∧ n < s.cfg.numVectors := by
  simp [pendingSources]

theorem foldl_min_mem (l : List Nat) (a : Nat) : l.foldl min a ∈ a :: l := by
  induction l generalizing a with
  | nil => exact List.mem_singleton_self a
  | cons b l ih =>
    have h := ih (min a b)
    rcases List.mem_cons.1 h with h | h
    · rw [List.foldl_cons, h]
      rcases min_choice a b with hm | hm <;> simp [hm]
    · exact List.mem_cons_of_mem _ (List.mem_cons_of_mem _ h)

theorem foldl_min_le (l : List Nat) (a : Nat) : ∀ m ∈ a :: l, l.foldl min a ≤ m := by
  induction l generalizing a with
  | nil => simp
  | cons b l ih =>
    obtain ⟨hmin, hrest⟩ := List.forall_mem_cons.1 (ih (min a b))
    simp only [List.forall_mem_cons]
    exact ⟨hmin.trans (min_le_left a b), hmin.trans (min_le_right a b), hrest⟩

/-- `IrqSelect` answers one of the sources it is given (R383). -/
theorem selectIrq_mem (s : State) (n : Nat) (rest : List Nat) : selectIrq s n rest ∈ n :: rest := by
  unfold selectIrq
  cases s.cfg.irqSelect with
  | lowest => exact foldl_min_mem rest n
  | free =>
    have hlt : Config.irqPick s.draws % (rest.length + 1) < (n :: rest).length :=
      Nat.mod_lt _ (by simp)
    rw [List.getD_eq_getElem _ _ hlt]
    exact List.getElem_mem hlt

theorem selectIrq_le {s : State} (h : s.cfg.irqSelect = .lowest) (n : Nat) (rest : List Nat) :
    ∀ m ∈ n :: rest, selectIrq s n rest ≤ m := by
  rw [selectIrq, h]
  exact foldl_min_le rest n

/-- The check answers a choice among the requesting sources, or nothing. -/
theorem interruptTaken_eq_some {s : State} {n : Nat} (h : interruptTaken s = some n) :
    s.flag .I = true ∧ s.irqInhibit = false ∧
      ∃ first rest, pendingSources s = first :: rest ∧ n = selectIrq s first rest := by
  unfold interruptTaken at h
  split at h
  next hI =>
    rw [Bool.and_eq_true, Bool.not_eq_true'] at hI
    split at h
    · cases h
    next first rest hp =>
      cases h
      exact ⟨hI.1, hI.2, first, rest, hp, rfl⟩
  · cases h

/-- With I set, no inhibit and a source requesting, the check takes an interrupt. -/
theorem interruptTaken_of_mem {s : State} {n : Nat} (hI : s.flag .I = true) (hinh : s.irqInhibit = false)
    (h : n ∈ pendingSources s) : ∃ m, interruptTaken s = some m := by
  unfold interruptTaken
  rw [hI, hinh, Bool.not_false, Bool.and_true, if_pos rfl]
  split
  next hp =>
    rw [hp] at h
    cases h
  · exact ⟨_, rfl⟩

/-- Settles O51: what the check answers is a member of the requesting sources, and the least of them. -/
theorem interruptCheck : Obligations.InterruptCheck := by
  intro s requesting
  refine ⟨⟨?_, ?_⟩, fun n hn => ?_⟩
  · rintro ⟨n, hn⟩
    obtain ⟨hI, hinh, first, rest, hp, -⟩ := interruptTaken_eq_some hn
    exact ⟨hI, hinh, first, mem_pendingSources.1 (hp ▸ List.mem_cons_self)⟩
  · rintro ⟨hI, hinh, n, hn⟩
    exact interruptTaken_of_mem hI hinh (mem_pendingSources.2 hn)
  · obtain ⟨-, -, first, rest, hp, rfl⟩ := interruptTaken_eq_some hn
    refine ⟨mem_pendingSources.1 (hp ▸ selectIrq_mem s first rest), fun hlow m hm => ?_⟩
    exact selectIrq_le hlow first rest m (hp ▸ mem_pendingSources.2 hm)

/-! ### The entry -/

/-- A machine that is not stopped takes the interrupt that the check finds (R380). -/
theorem step_of_interrupt {s : State} {n : Nat} (hrun : s.run ≠ .stopped) (h : interruptTaken s = some n) :
    step s = finish (interruptEntry n s) := by
  unfold step
  cases hr : s.run with
  | stopped => exact absurd hr hrun
  | sleeping | running => simp only [h]

theorem stored_stack_cfg {vs : List Byte} {s u : State} (h : PushedAll vs s u) : u.cfg = s.cfg := by
  induction vs generalizing s with
  | nil => exact congrArg State.cfg h
  | cons v rest ih =>
    obtain ⟨t, ⟨w, hstored, -, hframe⟩, hrest⟩ := h
    exact (ih hrest).trans ((hframe.cfg_eq (by simp)).trans hstored.cfg_eq)

/-- Settles O52: by `interruptEntry_effect`, or the fault of the push. -/
theorem interruptEntryEffect : Obligations.InterruptEntryEffect := by
  intro s n hrun hn
  refine ⟨fun h => ?_, fun j hj hb h => ?_⟩
  · obtain ⟨u, t, ht, hpush, hentry⟩ := interruptEntry_effect n s h
    refine ⟨u, t, by rw [step_of_interrupt hrun hn, ht, finish_ok], hpush, hentry, ?_⟩
    rw [hentry.1, stored_stack_cfg hpush]
    exact vector_toNat s.cfg n
  · rw [step_of_interrupt hrun hn, interruptEntry, pushPc_fault s.pc s j hj hb h, finish_error]

/-! ### Sleep and reset -/

/-- Settles O53: the check finds nothing under each of the three conditions, and a sleeping machine then does nothing. -/
theorem sleepingAndStopped : Obligations.SleepingAndStopped := by
  intro s
  refine ⟨fun hrun h => ?_, fun hrun => by rw [step, hrun]⟩
  have hnone : interruptTaken s = none := by
    refine Option.eq_none_iff_forall_ne_some.2 fun n hn => ?_
    obtain ⟨hI, hinh, first, rest, hp, -⟩ := interruptTaken_eq_some hn
    obtain ⟨hpend, h1, h2⟩ := mem_pendingSources.1 (hp ▸ List.mem_cons_self : first ∈ pendingSources s)
    rcases h with h | h | h
    · exact absurd hI (by simp [h])
    · exact absurd h (by simp [hinh])
    · have := h first hpend
      omega
  simp only [step, hrun, hnone]

theorem resetWith_flag (c : Config) (f : Flag) : (State.resetWith c).flag f = false :=
  (State.flag_of_sreg (v := 0) rfl f).trans BitVec.getLsbD_zero

/-- Settles O55: each value is read off the reset state. -/
theorem resetValues : Obligations.ResetValues := by
  refine ⟨fun c => ⟨rfl, rfl, rfl, fun r => ?_, resetWith_flag c, fun p => ?_, rfl, rfl, fun _ => rfl, fun _ => rfl, rfl, rfl,
    interruptTaken_of_flag (resetWith_flag c .I)⟩, fun s => ⟨rfl, fun p hp => ?_, rfl, rfl, rfl, rfl, rfl, rfl, rfl, rfl, rfl⟩⟩
  · simp [State.resetWith, State.reg, Vector.get_eq_getElem]
  · cases p <;> rfl
  · cases p with
    | spmBuffer | lockBit | jtagen | ocden | sleepEnabled | irqPending | events | draws => simp at hp
    | ramp q => cases q <;> rfl
    | _ => rfl

end Sys2Proof.Machine
end
